-- ==== Sys2Proof/Word.lean ====
section
/-! DEFINITION. The cell and bit-string types of BPAT (spec 20_memory.md rule R70, 30_encoding.md rule R121). -/

namespace Sys2Proof

/-- One cell of PIX, CAR, PAY or EXT (rule R70: every cell of every space is one 8-bit byte). -/
abbrev Byte := BitVec 8

/-- A command word (rule R101). -/
abbrev Word := BitVec 32

/-- A piece of the frame: logical bits, first logical bit at the head (rules R120, R121). -/
abbrev Bits := List Bool

end Sys2Proof
end

