-- ==== Sys2Proof/Syntax.lean ====
section
/-! DEFINITION. The 21 commands of spec 30_encoding.md rule R102, one constructor per row of opcode_table.json. -/

namespace Sys2Proof

/-- A command. Operands are named registers (rule R101), so only FLDRD and FLDWR carry a field: CNT, bits 13:8. -/
inductive Instr where
  /-- NOP (rule R145) -/
  | nop
  /-- RESET (rule R146) -/
  | reset
  /-- FLAT: carrier byte index to pixel coordinates (rule R162) -/
  | flat
  /-- UNFLAT: pixel coordinates to carrier byte index (rule R163) -/
  | unflat
  /-- CARRD: read one carrier byte (rule R164) -/
  | carrd
  /-- CARWR: write one carrier byte (rule R165) -/
  | carwr
  /-- XLATE: translate the cursor (rule R190) -/
  | xlate
  /-- ZONERD: extract the payload zone of one carrier byte (rule R191) -/
  | zonerd
  /-- ZONEWR: replace the payload zone of one carrier byte (rule R192) -/
  | zonewr
  /-- BITRD: read one bit at the cursor (rule R195) -/
  | bitrd
  /-- BITWR: write one bit at the cursor (rule R196) -/
  | bitwr
  /-- FLDRD n: read an n-bit field at the cursor (rule R197) -/
  | fldrd (n : BitVec 6)
  /-- FLDWR n: write an n-bit field at the cursor (rule R198) -/
  | fldwr (n : BitVec 6)
  /-- HDRBUILD: build the header registers (rule R220) -/
  | hdrbuild
  /-- HDRPUT: build the header and write it at bit 0 (rule R230) -/
  | hdrput
  /-- HDRGET: read and validate the header (rule R240) -/
  | hdrget
  /-- CAPCHK: run the capacity planner (rule R261) -/
  | capchk
  /-- PAYPUT: write the payload at the cursor (rule R270) -/
  | payput
  /-- PAYGET: read the payload at the cursor (rule R275) -/
  | payget
  /-- EMBED: whole encode (rule R280) -/
  | embed
  /-- EXTRACT: whole decode (rule R285) -/
  | extract
  deriving DecidableEq, Repr

end Sys2Proof
end

