-- ==== Sys2Proof/WellFormed.lean ====
section
/-! DEFINITION. Which commands have a legal word (spec 30_encoding.md rules R103, R104). -/

namespace Sys2Proof

/-- CNT must be 1 to 32 for FLDRD and FLDWR (rule R103). -/
def countOk (n : BitVec 6) : Bool := decide (1 ≤ n.toNat ∧ n.toNat ≤ 32)

/-- A command some legal word stands for. Only the bit count of FLDRD and FLDWR can be wrong. -/
def Instr.wellFormed : Instr → Bool
  | .fldrd n | .fldwr n => countOk n
  | .nop | .reset | .flat | .unflat | .carrd | .carwr | .xlate | .zonerd | .zonewr | .bitrd | .bitwr
  | .hdrbuild | .hdrput | .hdrget | .capchk | .payput | .payget | .embed | .extract => true

end Sys2Proof
end

