-- ==== Sys2Proof/Decode.lean ====
section
/-! DEFINITION. From the 64-bit data of a write to CMD to a command, total on all 2^64 values, and back
(spec 30_encoding.md rules R101 to R105). -/

namespace Sys2Proof

/-- Why a data value is no command (rule R104, its three conditions in the order it gives them). -/
inductive Illegal where
  /-- data bits 63:32 are not 0 -/
  | highBits
  /-- no row of rule R102 matches the low 32 bits -/
  | noRow
  /-- the row is FLDRD or FLDWR and CNT is 0 or above 32 -/
  | badCount
  deriving DecidableEq, Repr

/-- One row of the opcode map of rule R102: a word W selects the row when W AND mask equals pattern. -/
structure Row where
  pattern : Word
  mask : Word
  instr : BitVec 6 → Instr

/-- The opcode map (rule R102), in the table's order. -/
def opcodeRows : List Row :=
  [ ⟨0x00000000, 0xFFFFFFFF, fun _ => .nop⟩,
    ⟨0x00000001, 0xFFFFFFFF, fun _ => .reset⟩,
    ⟨0x00000010, 0xFFFFFFFF, fun _ => .flat⟩,
    ⟨0x00000011, 0xFFFFFFFF, fun _ => .unflat⟩,
    ⟨0x00000012, 0xFFFFFFFF, fun _ => .carrd⟩,
    ⟨0x00000013, 0xFFFFFFFF, fun _ => .carwr⟩,
    ⟨0x00000020, 0xFFFFFFFF, fun _ => .xlate⟩,
    ⟨0x00000021, 0xFFFFFFFF, fun _ => .zonerd⟩,
    ⟨0x00000022, 0xFFFFFFFF, fun _ => .zonewr⟩,
    ⟨0x00000023, 0xFFFFFFFF, fun _ => .bitrd⟩,
    ⟨0x00000024, 0xFFFFFFFF, fun _ => .bitwr⟩,
    ⟨0x00000025, 0xFFFFC0FF, .fldrd⟩,
    ⟨0x00000026, 0xFFFFC0FF, .fldwr⟩,
    ⟨0x00000030, 0xFFFFFFFF, fun _ => .hdrbuild⟩,
    ⟨0x00000031, 0xFFFFFFFF, fun _ => .hdrput⟩,
    ⟨0x00000032, 0xFFFFFFFF, fun _ => .hdrget⟩,
    ⟨0x00000038, 0xFFFFFFFF, fun _ => .capchk⟩,
    ⟨0x00000040, 0xFFFFFFFF, fun _ => .payput⟩,
    ⟨0x00000041, 0xFFFFFFFF, fun _ => .payget⟩,
    ⟨0x00000042, 0xFFFFFFFF, fun _ => .embed⟩,
    ⟨0x00000043, 0xFFFFFFFF, fun _ => .extract⟩ ]

/-- CNT, bits 13:8 of a command word (rule R101). -/
def countField (w : Word) : BitVec 6 := w.extractLsb' 8 6

/-- The command of the row a word selects, its CNT not yet tested (rules R102, R103). -/
def decodeRow (w : Word) : Option Instr :=
  (opcodeRows.find? fun r => w &&& r.mask == r.pattern).map fun r => r.instr (countField w)

/-- The decoder (rule R104): the command, or the reason the data is illegal. -/
def decode (data : BitVec 64) : Except Illegal Instr :=
  if data.extractLsb' 32 32 ≠ 0 then .error .highBits
  else match decodeRow (data.setWidth 32) with
    | none => .error .noRow
    | some i => if i.wellFormed then .ok i else .error .badCount

/-- OPC of a command (rule R102). -/
def opcodeOf : Instr → BitVec 8
  | .nop => 0x00
  | .reset => 0x01
  | .flat => 0x10
  | .unflat => 0x11
  | .carrd => 0x12
  | .carwr => 0x13
  | .xlate => 0x20
  | .zonerd => 0x21
  | .zonewr => 0x22
  | .bitrd => 0x23
  | .bitwr => 0x24
  | .fldrd _ => 0x25
  | .fldwr _ => 0x26
  | .hdrbuild => 0x30
  | .hdrput => 0x31
  | .hdrget => 0x32
  | .capchk => 0x38
  | .payput => 0x40
  | .payget => 0x41
  | .embed => 0x42
  | .extract => 0x43

/-- CNT of a command: n for FLDRD n and FLDWR n, 0 for every other (rule R101). -/
def countOf : Instr → BitVec 6
  | .fldrd n | .fldwr n => n
  | .nop | .reset | .flat | .unflat | .carrd | .carwr | .xlate | .zonerd | .zonewr | .bitrd | .bitwr
  | .hdrbuild | .hdrput | .hdrget | .capchk | .payput | .payget | .embed | .extract => 0

/-- The command word: OPC in 7:0, CNT in 13:8, zeros in 31:14 (rule R101). -/
def encodeWord (i : Instr) : Word := (0#18 ++ countOf i) ++ opcodeOf i

/-- The encoder: the 64-bit data of the write to CMD, the command word under 32 zero bits (rule R101). -/
def encode (i : Instr) : BitVec 64 := 0#32 ++ encodeWord i

/-- What the decoder reads from an instruction of the opcode table whose bits are w (its low nbits bits, the bits above
them 0): the one command word is the low half of the CMD data. -/
def decodeTableWord (nbits w : Nat) : Option Instr :=
  match decode (BitVec.ofNat 64 (w % 2 ^ nbits)) with
  | .ok i => some i
  | .error _ => none

end Sys2Proof
end

