-- ==== Sys2Proof/Config.lean ====
section
/-! DEFINITION. What an implementation fixes (spec 00_scope.md rule R5) and the free values: the contents of PIX and
PAY that nothing has written. The one open parameter, PAY_CAP, is the model's field State.payCap (log entry 6). -/

namespace Sys2Proof.Config

/-- MAXDIM: the largest width or height, the largest value of an 11-bit field (rule R5, decision D26). -/
abbrev maxDim : Nat := 2047

/-- EXT_MAX: the number of bytes of the extension buffer (rules R5, R40, decision D17). -/
abbrev extMax : Nat := 243

/-- The number of byte cells of the largest pixel grid, 3·2047·2047 (rule R5). -/
abbrev pixCells : Nat := 12570627

/-- FREE VALUE: the byte the PIX cell with this number holds if nothing has written it since power-on
(rules R50, R340, R341; 93_implementation_defined.md U14; log entry 5). No body: nothing can be proved of it. -/
opaque pixPowerOn : Nat → Byte

/-- FREE VALUE: the byte the PAY cell with this index holds if nothing has written it since power-on
(rules R50, R340, R341; 93_implementation_defined.md U14; log entry 5). No body: nothing can be proved of it. -/
opaque payPowerOn : Nat → Byte

end Sys2Proof.Config
end

