-- ==== Sys2Proof/Machine/State.lean ====
section
/-! DEFINITION. The architectural state of BPAT (spec 10_state.md, 20_memory.md), the host's moves, the state after
reset, and the reasons a step of the model can stop. -/

namespace Sys2Proof.Machine

/-- The value of FAULT (60_exceptions.md rule R300). Exactly ten values (93_implementation_defined.md V2). These are
BPAT's own faults: raising one is a next state of the model (rule R310). -/
inductive FaultCode where
  | noFault
  | corruptedHeader
  | insufficientCapacity
  /-- reserved for host software, never raised (rule R304) -/
  | fileAccess
  | carrierOverrun
  | truncated
  | lengthError
  | extTooLong
  | paramError
  | illegalCommand
  deriving DecidableEq, Repr

/-- The value of PHASE: how far the decode sequence has gone (10_state.md rule R32). -/
inductive Phase where
  | idle
  | bootstrap
  | widthHeight
  | extension
  | fileSize
  | hdrDone
  | payload
  | done
  deriving DecidableEq, Repr

/-- The registers of the bus map (10_state.md rule R21). -/
inductive Reg where
  | cmd | status | finfo | imgw | imgh | lsbw | bitpos | idx | data | paylen | extlen
  | hcode | hwidth | hheight | filesz | hdrsz
  | xbyte | xbit | xpix | xx | xy | xch
  | capneed | defbits | defbytes | defpix | nbytes
  /-- EXT[j] (rule R40) -/
  | ext (j : Fin 243)
  deriving DecidableEq, Repr

/-- A bus transaction (30_encoding.md rule R100: a value of a two-constructor type). -/
inductive Transaction where
  /-- `RD index` -/
  | rd (index : BitVec 12)
  /-- `WR index, data` -/
  | wr (index : BitVec 12) (data : BitVec 64)
  deriving DecidableEq, Repr

/-- What the host may do, between commands (70_reset_and_hazards.md rule R348). -/
inductive HostMove where
  /-- a register read, a register write or a command -/
  | bus (t : Transaction)
  /-- the host reads the PIX cell (x, y, c) by its own means -/
  | pixRead (x y c : Nat)
  /-- the host writes the PIX cell (x, y, c) by its own means -/
  | pixWrite (x y c : Nat) (v : Byte)
  /-- the host reads the PAY cell j by its own means -/
  | payRead (j : Nat)
  /-- the host writes the PAY cell j by its own means -/
  | payWrite (j : Nat) (v : Byte)
  /-- the hardware reset (rule R340) -/
  | hardReset
  deriving DecidableEq, Repr

/-- A memory as plain data: the cells something has written, by address, strictly rising (Memory.wf). An unlisted cell
has no value listed; reading it gives the free power-on byte (log entry 5). -/
abbrev Memory := List Host.Cell

/-- The state. All but the last three fields are the spec's (10_state.md rule R20). -/
structure State where
  /-- STATUS 3:0 (rules R30, R31) -/
  fault : FaultCode
  /-- STATUS 7:4 -/
  subcause : BitVec 4
  /-- STATUS 10:8 (rule R32) -/
  phase : Phase
  /-- STATUS 11 -/
  fits : Bool
  /-- STATUS 12 -/
  xvalid : Bool
  finfo : BitVec 64
  imgw : BitVec 11
  imgh : BitVec 11
  lsbw : BitVec 3
  bitpos : BitVec 32
  idx : BitVec 24
  data : BitVec 32
  paylen : BitVec 29
  extlen : BitVec 8
  hcode : BitVec 2
  hwidth : BitVec 11
  hheight : BitVec 11
  filesz : BitVec 32
  hdrsz : BitVec 11
  xbyte : BitVec 32
  xbit : BitVec 3
  xpix : BitVec 32
  xx : BitVec 11
  xy : BitVec 11
  xch : BitVec 2
  capneed : BitVec 33
  defbits : BitVec 33
  defbytes : BitVec 33
  defpix : BitVec 32
  /-- the extension buffer EXT[0..242] (rule R40) -/
  ext : Vector Byte 243
  /-- the pixel memory, by the cell number Machine.pixKey (20_memory.md rule R71, log entry 4) -/
  pix : Memory
  /-- the payload memory, by index (20_memory.md rule R75) -/
  pay : Memory
  /-- MODEL's field: the open parameter PAY_CAP (00_scope.md rule R5, decision D18, log entry 6); no step writes it -/
  payCap : BitVec 29
  /-- MODEL's field: the host's moves still to come, the first at the head (log entry 1) -/
  pending : List HostMove
  /-- MODEL's field: what the host's last read gave it, if it has read (log entry 2) -/
  returned : Option (BitVec 64)
  deriving DecidableEq, Repr

/-- The state after reset (10_state.md rule R50, 70_reset_and_hazards.md rule R340): every register 0, PIX and PAY with
nothing listed. The model's fields: PAY_CAP = 2^20, the value of 95_test_vectors.md (DESIGN CHOICE, unsafe, log entry 6);
no host move to come; nothing returned. -/
def State.reset : State where
  fault := .noFault
  subcause := 0
  phase := .idle
  fits := false
  xvalid := false
  finfo := 0
  imgw := 0
  imgh := 0
  lsbw := 0
  bitpos := 0
  idx := 0
  data := 0
  paylen := 0
  extlen := 0
  hcode := 0
  hwidth := 0
  hheight := 0
  filesz := 0
  hdrsz := 0
  xbyte := 0
  xbit := 0
  xpix := 0
  xx := 0
  xy := 0
  xch := 0
  capneed := 0
  defbits := 0
  defbytes := 0
  defpix := 0
  ext := Vector.replicate 243 0
  pix := []
  pay := []
  payCap := 0x100000
  pending := []
  returned := none

/-- The reasons the MODEL stops. None is raised by a command: BPAT's own faults are FaultCode values of a next state. -/
inductive Fault where
  /-- A host move named a PIX cell that does not exist: x or y above 2046 or c above 2 (rule R71). Raised by pixRead and
  pixWrite. Safe: the spec gives such an access no meaning. -/
  | noPixCell
  /-- A host move named a PAY cell at or above PAY_CAP (rule R70). Raised by payRead and payWrite. Safe: the spec gives
  such an access no meaning. -/
  | noPayCell
  deriving DecidableEq, Repr

/-- The reasons the model has no meaning for an instruction. -/
inductive Refusal where
  /-- The instruction has no meaning yet. Raised by a refused arm of exec; no arm is refused, so never. Safe. -/
  | notModelled (mnemonic : String)
  deriving DecidableEq, Repr

end Sys2Proof.Machine
end

