-- ==== Sys2Proof/Machine/Operands.lean ====
section
/-! DEFINITION. The address arithmetic of BPAT as pure functions: the flattener PCSF (spec 20_memory.md), the bit-plane
address translator BAT and the byte multiplexer LBM (42_translator_mux.md). Arithmetic is over the natural numbers
(00_scope.md rule R6). -/

namespace Sys2Proof.Machine

/-- `ceil(a / b)` for b > 0 (rule R6). -/
def ceilDiv (a b : Nat) : Nat := (a + b - 1) / b

/-- `|a − b|` (rule R6). -/
def absDiff (a b : Nat) : Nat := (a - b) + (b - a)

/-! ### PCSF, the flattener -/

/-- The pixel index of carrier byte i (rule R74). -/
def pixelOf (i : Nat) : Nat := i / 3

/-- The channel of carrier byte i: 0 R, 1 G, 2 B (rule R74). -/
def chanOf (i : Nat) : Nat := i % 3

/-- The column of carrier byte i in an image of width w > 0 (rule R74). -/
def colOf (w i : Nat) : Nat := pixelOf i % w

/-- The row of carrier byte i in an image of width w > 0 (rule R74). -/
def rowOf (w i : Nat) : Nat := pixelOf i / w

/-- `unflat(x, y, c)`, the carrier byte index of a cell (rule R74). -/
def unflat (w x y c : Nat) : Nat := 3 * (y * w + x) + c

/-- The number under which Memory lists the PIX cell (x, y, c), for x, y up to 2046 and c up to 2. It does not depend on
IMGW (rule R72). DESIGN CHOICE, safe: no rule gives PIX a linear address (rule R71, log entry 4). -/
def pixKey (x y c : Nat) : Nat := 3 * (y * Config.maxDim + x) + c

/-- The number of the PIX cell `flat(i)` that carrier byte i is a view of, in an image of width w (rules R73, R74). -/
def carKey (w i : Nat) : Nat := pixKey (colOf w i) (rowOf w i) (chanOf i)

/-! ### BAT, the bit-plane address translator -/

/-- `translate(k, w)`: the carrier byte index and the bit position of logical bit k under width w (rule R180). -/
def translate (k w : Nat) : Nat × Nat :=
  if k ≤ 3 then (k, 0)
  else if k = 4 then (4, 0)
  else (4 + (k - 4) / w, (k - 4) % w)

/-- `needw(k)`: logical bits 5 and up need a width (rule R181). -/
def needw (k : Nat) : Bool := decide (5 ≤ k)

/-- `ew(i, w)`, the effective width of carrier byte i (rule R182). -/
def ew (i w : Nat) : Nat := if i ≤ 3 then 1 else w

/-- `zonebase(i, w)`, the first logical bit of carrier byte i (rule R182). -/
def zonebase (i w : Nat) : Nat := if i ≤ 3 then i else 4 + (i - 4) * w

/-- `capbits(N, w)`, the logical bits a carrier of n bytes holds (rule R183). -/
def capbits (n w : Nat) : Nat := if n ≤ 4 then n else 4 + (n - 4) * w

/-- `bytesexact(L, w)`, the carrier bytes a frame of l bits takes (rule R183). -/
def bytesexact (l w : Nat) : Nat := if l ≤ 4 then l else 4 + ceilDiv (l - 4) w

/-! ### LBM, the byte multiplexer -/

/-- `mask(e)` on a byte: the e low positions (00_scope.md rule R7). -/
def maskByte (e : Nat) : Byte := BitVec.ofNat 8 (2 ^ e - 1)

/-- `zoneins(orig, d, e)`: replace the payload zone (rule R184). -/
def zoneins (orig d : Byte) (e : Nat) : Byte := (orig &&& ~~~maskByte e) ||| (d &&& maskByte e)

/-- `zoneext(orig, e)`: extract the payload zone (rule R184). -/
def zoneext (orig : Byte) (e : Nat) : Byte := orig &&& maskByte e

/-- `bitins(orig, p, b)`: replace one payload bit, setbit of rule R7 (rule R184). -/
def bitins (orig : Byte) (p : Nat) (b : Bool) : Byte :=
  if b then orig ||| (1#8 <<< p) else orig &&& ~~~(1#8 <<< p)

/-- `bitext(orig, p)`: extract one payload bit (rule R184). -/
def bitext (orig : Byte) (p : Nat) : Bool := orig.getLsbD p

end Sys2Proof.Machine
end

