-- ==== Sys2Proof/Machine/Flags.lean ====
section
/-! DEFINITION. The fields of STATUS as numbers, the STATUS view (spec 10_state.md rule R30), and the figures the flags
XVALID and FITS report: the carrier length and the capacity planner (20_memory.md rule R73, 44_capacity.md rule R260). -/

namespace Sys2Proof.Machine

/-- The number of a fault code (60_exceptions.md rule R300). -/
def FaultCode.code : FaultCode → Nat
  | .noFault => 0
  | .corruptedHeader => 1
  | .insufficientCapacity => 2
  | .fileAccess => 3
  | .carrierOverrun => 4
  | .truncated => 5
  | .lengthError => 6
  | .extTooLong => 7
  | .paramError => 8
  | .illegalCommand => 9

/-- The number of a phase (10_state.md rule R32). -/
def Phase.code : Phase → Nat
  | .idle => 0
  | .bootstrap => 1
  | .widthHeight => 2
  | .extension => 3
  | .fileSize => 4
  | .hdrDone => 5
  | .payload => 6
  | .done => 7

/-- STATUS, 13 bits, assembled from its fields (rule R30). -/
def statusView (s : State) : BitVec 13 :=
  BitVec.ofBool s.xvalid ++ BitVec.ofBool s.fits ++ BitVec.ofNat 3 s.phase.code ++ s.subcause ++
    BitVec.ofNat 4 s.fault.code

/-- N, the carrier byte count 3·IMGW·IMGH (20_memory.md rule R73); also what NBYTES reads as. -/
def carLen (s : State) : Nat := 3 * s.imgw.toNat * s.imgh.toNat

/-- XVALID for a byte index: it is below N (10_state.md rule R30). -/
def inCarrier (i : Nat) (s : State) : Bool := decide (i < carLen s)

/-- `need(T, w)`, the planner's bytesNeeded (44_capacity.md rule R260). -/
def planNeed (t w : Nat) : Nat := ceilDiv t w

/-- `fits`: c carrier bytes suffice by the planner's formula (rule R260). -/
def planFits (c t w : Nat) : Bool := decide (planNeed t w ≤ c)

/-- `defbytes` (rule R260). -/
def planDefBytes (c t w : Nat) : Nat := absDiff c (planNeed t w)

/-- `defbits` (rule R260). -/
def planDefBits (c t w : Nat) : Nat := absDiff (c * w) t

/-- `defpix`, whole pixels, rounded down (rule R260). -/
def planDefPix (c t w : Nat) : Nat := planDefBytes c t w / 3

end Sys2Proof.Machine
end

