-- ==== Sys2Proof/Machine/Frame.lean ====
section
/-! DEFINITION. The frame format on the wire: fields as bit strings, the header's layout, the payload's
(spec 30_encoding.md rules R120 to R124). -/

namespace Sys2Proof.Machine

/-- SEP, the separator: ASCII x, 0x78 (00_scope.md rule R5, decision D10). -/
def sep : Nat := 0x78

/-- TERM, the extension terminator: newline, 0x0A (00_scope.md rule R5, decision D10). -/
def terminator : Nat := 0x0A

/-- The magic value of `code` (00_scope.md rule R5). -/
def magic : Nat := 3

/-- `fieldbits(v, b)`: bit 0 of v first (rule R121). -/
def fieldbits (v b : Nat) : Bits := (List.range b).map fun j => v.testBit j

/-- `fieldval(L)`: the inverse, the sum of L[j]·2^j (rule R121). -/
def fieldval : Bits → Nat
  | [] => 0
  | b :: l => b.toNat + 2 * fieldval l

/-- `headerSizeBits` for an extension of n bytes (rule R122). -/
def headerSize (n : Nat) : Nat := 99 + 8 * n

/-- Bytes as logical bits, in index order, each least significant bit first (rules R123, R124). -/
def bytebits (bytes : List Byte) : Bits := bytes.flatMap fun b => fieldbits b.toNat 8

/-- `serialize(w, W, H, e, F)`, the header as one bit string (rule R123). -/
def serialize (w wid hei : Nat) (e : List Byte) (f : Nat) : Bits :=
  fieldbits magic 2 ++ fieldbits w 3 ++ fieldbits sep 8 ++ fieldbits wid 11 ++
  fieldbits sep 8 ++ fieldbits hei 11 ++ fieldbits sep 8 ++
  bytebits e ++ fieldbits terminator 8 ++
  fieldbits f 32 ++ fieldbits sep 8

end Sys2Proof.Machine
end

