-- ==== Sys2Proof/Machine/Ops.lean ====
section
/-! DEFINITION. The named operations every command is built from: memory cells, raising a fault and the way out of it,
the span test, and the bit-string primitives (spec 00_scope.md rule R8, 20_memory.md, 42_translator_mux.md rules R185,
R186, 60_exceptions.md rules R310, R312). -/

namespace Sys2Proof.Machine

/-! ### Memory as plain data -/

/-- The byte listed at an address, if any. -/
def Memory.read? : Memory → Nat → Option Byte
  | [], _ => none
  | (b, v) :: m, a => if a = b then some v else Memory.read? m a

/-- Store a byte, keeping the addresses strictly rising. -/
def Memory.write : Memory → Nat → Byte → Memory
  | [], a, v => [(a, v)]
  | (b, w) :: m, a, v =>
    if a < b then (a, v) :: (b, w) :: m
    else if a = b then (a, v) :: m
    else (b, w) :: Memory.write m a v

/-- Every listed address is at or above a bound and below the next one. -/
def Memory.risingFrom : Nat → Memory → Bool
  | _, [] => true
  | lo, (b, _) :: m => decide (lo ≤ b) && Memory.risingFrom (b + 1) m

/-- The canonical form: addresses strictly rising. An unlisted cell has no value listed, so no listed byte equals what an
unlisted address has in the list (log entry 5). -/
def Memory.wf (m : Memory) : Bool := Memory.risingFrom 0 m

/-- Every listed address is below a bound. -/
def Memory.below (n : Nat) (m : Memory) : Bool := m.all fun c => decide (c.1 < n)

/-! ### The four spaces (20_memory.md rule R70) -/

/-- The byte of the PIX cell with this number: the one written last, or the free power-on byte (log entry 5). -/
def pixByte (a : Nat) (s : State) : Byte := (Memory.read? s.pix a).getD (Config.pixPowerOn a)

/-- Write the PIX cell with this number. -/
def setPixByte (a : Nat) (v : Byte) (s : State) : State := { s with pix := Memory.write s.pix a v }

/-- `CAR[i]`, a view of PIX through `flat` (20_memory.md rule R73). -/
def carRead (i : Nat) (s : State) : Byte := pixByte (carKey s.imgw.toNat i) s

/-- `CAR[i] <- v` (20_memory.md rule R73). -/
def carWrite (i : Nat) (v : Byte) (s : State) : State := setPixByte (carKey s.imgw.toNat i) v s

/-- `PAY[j]` (20_memory.md rule R75): the byte written last, or the free power-on byte (log entry 5). -/
def payRead (j : Nat) (s : State) : Byte := (Memory.read? s.pay j).getD (Config.payPowerOn j)

/-- `PAY[j] <- v` (20_memory.md rule R75). -/
def payWrite (j : Nat) (v : Byte) (s : State) : State := { s with pay := Memory.write s.pay j v }

/-- The payload as bytes: PAY[j], PAY[j+1], … (n of them) (30_encoding.md rule R124). -/
def payBytes (j n : Nat) (s : State) : List Byte := (List.range n).map fun m => payRead (j + m) s

/-- `EXT[j]` (10_state.md rule R40). -/
def extRead (j : Nat) (s : State) : Byte := s.ext.toList.getD j 0

/-- `EXT[j] <- v` (10_state.md rule R40); nothing for a j that names no byte of the buffer. -/
def extWrite (j : Nat) (v : Byte) (s : State) : State := { s with ext := s.ext.setIfInBounds j v }

/-- The extension: EXT[0], …, EXT[EXTLEN − 1] (10_state.md rule R40). -/
def extBytes (s : State) : List Byte := s.ext.toList.take s.extlen.toNat

/-! ### Raising a fault, and the way out (60_exceptions.md rules R310, R312) -/

/-- Fault entry (rule R310): the three fault registers are written, everything else stays. -/
def raise (code : FaultCode) (sub info : Nat) (s : State) : State :=
  { s with fault := code, subcause := BitVec.ofNat 4 sub, finfo := BitVec.ofNat 64 info }

/-- The way out of the faulted state, and the whole of a reset (40_system.md rule R146, 70_reset_and_hazards.md rule
R340): every register, flag and EXT byte 0; PIX and PAY not touched, nor the model's own fields. -/
def resetRegs (s : State) : State :=
  { s with
    fault := .noFault, subcause := 0, phase := .idle, fits := false, xvalid := false, finfo := 0
    imgw := 0, imgh := 0, lsbw := 0, bitpos := 0, idx := 0, data := 0, paylen := 0, extlen := 0
    hcode := 0, hwidth := 0, hheight := 0, filesz := 0, hdrsz := 0
    xbyte := 0, xbit := 0, xpix := 0, xx := 0, xy := 0, xch := 0
    capneed := 0, defbits := 0, defbytes := 0, defpix := 0
    ext := Vector.replicate 243 0 }

/-- A piece of a command's pseudocode: `.ok` what it computes when it reaches its end, `.error t` when a raise ended the
command in the state t, with every write above the raise in it (00_scope.md rule R8). -/
abbrev Run (α : Type) := Except State α

/-- `raise F(sub, info)` as the end of a command (rule R8). -/
def fail {α : Type} (code : FaultCode) (sub info : Nat) (s : State) : Run α := .error (raise code sub info s)

/-- `if not p: raise F(sub, info)`. -/
def require (p : Prop) [Decidable p] (code : FaultCode) (sub info : Nat) (s : State) : Run Unit :=
  if p then .ok () else fail code sub info s

/-- The state a command leaves, whether it reached its last line or a raise ended it (40_system.md rule R143). -/
def finalState : Run State → State
  | .ok s => s
  | .error s => s

/-- A command other than RESET: refused without any state change while FAULT ≠ 0 (40_system.md rule R143,
60_exceptions.md rule R312), else its pseudocode is run to its end. -/
def command (body : State → Run State) (s : State) : Host.Outcome State Fault Refusal :=
  .next (if s.fault = .noFault then finalState (body s) else s)

/-! ### The span test and the bit-string primitives (42_translator_mux.md) -/

/-- `read` or `write`, the kind of a span (rule R185). -/
inductive SpanKind where
  | read
  | write
  deriving DecidableEq, Repr

/-- `CheckSpan(k, n, kind)` for n ≥ 1 (rule R185). It writes nothing unless it raises. -/
def checkSpan (k n : Nat) (kind : SpanKind) (s : State) : Run Unit :=
  let last := k + n - 1
  let i := (translate last s.lsbw.toNat).1
  if needw last ∧ s.lsbw = 0 then fail .paramError 1 k s
  else if carLen s ≤ i then
    match kind with
    | .write => fail .carrierOverrun 0 (i + 1 - carLen s) s
    | .read => fail .truncated s.phase.code k s
  else .ok ()

/-- One step of `WriteBits`: logical bit k becomes b (rule R186). -/
def writeBit (k : Nat) (b : Bool) (s : State) : State :=
  let ip := translate k s.lsbw.toNat
  carWrite ip.1 (bitins (carRead ip.1 s) ip.2 b) s

/-- The logical bit k (rule R186). -/
def readBit (k : Nat) (s : State) : Bool :=
  let ip := translate k s.lsbw.toNat
  bitext (carRead ip.1 s) ip.2

/-- `WriteBits(k, L)` (rule R186), after CheckSpan has passed for the span. -/
def writeBits (k : Nat) : Bits → State → State
  | [], s => s
  | b :: l, s => writeBits (k + 1) l (writeBit k b s)

/-- `ReadBits(k, n)` (rule R186), after CheckSpan has passed for the span. -/
def readBits (k n : Nat) (s : State) : Bits := (List.range n).map fun j => readBit (k + j) s

/-- `WriteField(k, v, b)` (rule R186). -/
def writeField (k v b : Nat) (s : State) : State := writeBits k (fieldbits v b) s

/-- `ReadField(k, b)` (rule R186). -/
def readField (k b : Nat) (s : State) : Nat := fieldval (readBits k b s)

/-- `Get(k, n)`: the span test for reading, then the field (43_header.md rule R240). -/
def getField (k n : Nat) (s : State) : Run Nat := do
  checkSpan k n .read s
  return readField k n s

/-- Where carrier byte i lies, as FLAT and XLATE report it: XPIX, XCH, XX, XY, XVALID (41_flattener.md rule R162). -/
def locate (i : Nat) (s : State) : State :=
  let inside := inCarrier i s
  { s with
    xpix := BitVec.ofNat 32 (pixelOf i)
    xch := BitVec.ofNat 2 (chanOf i)
    xx := if inside then BitVec.ofNat 11 (colOf s.imgw.toNat i) else 0
    xy := if inside then BitVec.ofNat 11 (rowOf s.imgw.toNat i) else 0
    xvalid := inside }

end Sys2Proof.Machine
end

