-- ==== Sys2Proof/Machine/Header.lean ====
section
/-! DEFINITION. The header codec and FHV, the frame header validator (spec 43_header.md rules R220, R230, R240, R241). -/

namespace Sys2Proof.Machine

/-- `BuildHeader()` (rule R220). -/
def buildHeader (s : State) : Run State := do
  require (s.lsbw ≠ 0) .paramError 1 0 s
  require (s.extlen.toNat ≤ Config.extMax) .paramError 2 s.extlen.toNat s
  return { s with
    hcode := BitVec.ofNat 2 magic
    hwidth := s.imgw
    hheight := s.imgh
    filesz := BitVec.ofNat 32 (8 * s.paylen.toNat)
    hdrsz := BitVec.ofNat 11 (headerSize s.extlen.toNat) }

/-- HDRBUILD (rule R220). -/
def execHdrbuild (s : State) : Host.Outcome State Fault Refusal := command buildHeader s

/-- The header the registers describe, as bits (30_encoding.md rule R123). -/
def headerBits (s : State) : Bits :=
  serialize s.lsbw.toNat s.hwidth.toNat s.hheight.toNat (extBytes s) s.filesz.toNat

/-- The pseudocode of HDRPUT (rule R230). -/
def hdrputBody (s : State) : Run State := do
  let s ← buildHeader s
  checkSpan 0 s.hdrsz.toNat .write s
  return { writeBits 0 (headerBits s) s with bitpos := s.hdrsz.setWidth 32 }

/-- HDRPUT (rule R230). -/
def execHdrput (s : State) : Host.Outcome State Fault Refusal := command hdrputBody s

/-! ### The validator, phase by phase (rule R240) -/

/-- ReadBootstrap: code and lsbWidth, checks 1 and 2. -/
def readBootstrap (s : State) : Run State := do
  let s := { s with phase := .bootstrap }
  let c ← getField 0 2 s
  let l ← getField 2 3 s
  let s := { s with hcode := BitVec.ofNat 2 c, lsbw := BitVec.ofNat 3 l, bitpos := 5 }
  require (c = magic) .corruptedHeader 1 c s
  require (l ≠ 0) .corruptedHeader 2 l s
  return s

/-- Read the separator at bit k, move the cursor behind it and check it, under a sub-cause (checks 3, 4, 5, 9). -/
def readSeparator (k sub : Nat) (s : State) : Run State := do
  let b ← getField k 8 s
  let s := { s with bitpos := BitVec.ofNat 32 (k + 8) }
  require (b = sep) .corruptedHeader sub b s
  return s

/-- ReadWidthHeight: separators 1 to 3, width and height, checks 3 to 7. -/
def readWidthHeight (s : State) : Run State := do
  let s := { s with phase := .widthHeight }
  let s ← readSeparator 5 3 s
  let v ← getField 13 11 s
  let s := { s with hwidth := BitVec.ofNat 11 v, bitpos := 24 }
  let s ← readSeparator 24 4 s
  let v ← getField 32 11 s
  let s := { s with hheight := BitVec.ofNat 11 v, bitpos := 43 }
  let s ← readSeparator 43 5 s
  require (s.hwidth = s.imgw) .corruptedHeader 6 s.hwidth.toNat s
  require (s.hheight = s.imgh) .corruptedHeader 7 s.hheight.toNat s
  return s

/-- The terminator scan at bit k with room for that many more bytes in EXT: the bit index behind the terminator and the
state (rule R240, the repeat loop; check 8). -/
def scanExtension : (room k : Nat) → State → Run (Nat × State)
  | 0, k, s => do
    let b ← getField k 8 s
    let s := { s with bitpos := BitVec.ofNat 32 (k + 8) }
    require (b = terminator) .extTooLong 0 (k + 8) s
    return (k + 8, s)
  | room + 1, k, s => do
    let b ← getField k 8 s
    let s := { s with bitpos := BitVec.ofNat 32 (k + 8) }
    if b = terminator then
      return (k + 8, s)
    let s := { extWrite s.extlen.toNat (BitVec.ofNat 8 b) s with extlen := s.extlen + 1 }
    scanExtension room (k + 8) s

/-- ReadExtension: the scan starts at bit 51 with an empty extension. -/
def readExtension (s : State) : Run (Nat × State) :=
  scanExtension Config.extMax 51 { s with phase := .extension, extlen := 0 }

/-- ReadFileSize at bit k: fileSizeBits, separator 4, and the header is done. -/
def readFileSize (k : Nat) (s : State) : Run State := do
  let s := { s with phase := .fileSize }
  let v ← getField k 32 s
  let s := { s with filesz := BitVec.ofNat 32 v, bitpos := BitVec.ofNat 32 (k + 32) }
  let s ← readSeparator (k + 32) 8 s
  return { s with hdrsz := BitVec.ofNat 11 (k + 40), phase := .hdrDone }

/-- The pseudocode of HDRGET (rule R240). -/
def hdrgetBody (s : State) : Run State := do
  let s ← readBootstrap s
  let s ← readWidthHeight s
  let (k, s) ← readExtension s
  readFileSize k s

/-- HDRGET (rule R240). -/
def execHdrget (s : State) : Host.Outcome State Fault Refusal := command hdrgetBody s

end Sys2Proof.Machine
end

