-- ==== Sys2Proof/Machine/Capacity.lean ====
section
/-! DEFINITION. The capacity planner (spec 44_capacity.md rules R260, R261). -/

namespace Sys2Proof.Machine

/-- T, the bits of the frame the header registers describe (rule R261). -/
def frameBits (s : State) : Nat := s.hdrsz.toNat + s.filesz.toNat

/-- The planner for a frame of t bits on the current carrier, its figures in the planner registers (rule R261). -/
def plan (t : Nat) (s : State) : State :=
  let c := carLen s
  let w := s.lsbw.toNat
  { s with
    capneed := BitVec.ofNat 33 (planNeed t w)
    fits := planFits c t w
    defbytes := BitVec.ofNat 33 (planDefBytes c t w)
    defbits := BitVec.ofNat 33 (planDefBits c t w)
    defpix := BitVec.ofNat 32 (planDefPix c t w) }

/-- The pseudocode of CAPCHK (rule R261). -/
def capchkBody (s : State) : Run State := do
  let s ← buildHeader s
  return plan (frameBits s) s

/-- CAPCHK (rule R261). -/
def execCapchk (s : State) : Host.Outcome State Fault Refusal := command capchkBody s

end Sys2Proof.Machine
end

