-- ==== Sys2Proof/Machine/Codec.lean ====
section
/-! DEFINITION. The payload and whole-frame commands (spec 45_codec.md rules R270, R275, R280, R285). -/

namespace Sys2Proof.Machine

/-- `paybits(PAY, PAYLEN)`, the payload as bits (30_encoding.md rule R124). -/
def payloadBits (s : State) : Bits := bytebits (payBytes 0 s.paylen.toNat s)

/-- The pseudocode of PAYPUT (rule R270). -/
def payputBody (s : State) : Run State := do
  require (s.paylen.toNat ≤ s.payCap.toNat) .paramError 3 s.paylen.toNat s
  let l := 8 * s.paylen.toNat
  let k := s.bitpos.toNat
  if 0 < l then checkSpan k l .write s
  return { writeBits k (payloadBits s) s with bitpos := BitVec.ofNat 32 (k + l) }

/-- PAYPUT (rule R270). -/
def execPayput (s : State) : Host.Outcome State Fault Refusal := command payputBody s

/-- Pack n bytes read from bit k on into PAY[j], PAY[j+1], … (rule R275, the for loop). -/
def loadPayload : (n j k : Nat) → State → State
  | 0, _, _, s => s
  | n + 1, j, k, s => loadPayload n (j + 1) (k + 8) (payWrite j (BitVec.ofNat 8 (readField k 8 s)) s)

/-- The pseudocode of PAYGET (rule R275). -/
def paygetBody (s : State) : Run State := do
  let s := { s with phase := .payload }
  let f := s.filesz.toNat
  let k := s.bitpos.toNat
  require (f % 8 = 0) .lengthError 1 f s
  require (f / 8 ≤ s.payCap.toNat) .lengthError 2 f s
  if 0 < f then checkSpan k f .read s
  return { loadPayload (f / 8) 0 k s with
    paylen := BitVec.ofNat 29 (f / 8), bitpos := BitVec.ofNat 32 (k + f), phase := .done }

/-- PAYGET (rule R275). -/
def execPayget (s : State) : Host.Outcome State Fault Refusal := command paygetBody s

/-- The pseudocode of EMBED (rule R280). -/
def embedBody (s : State) : Run State := do
  let s ← buildHeader s
  require (s.paylen.toNat ≤ s.payCap.toNat) .paramError 3 s.paylen.toNat s
  let t := frameBits s
  let s := plan t s
  require (s.fits = true) .insufficientCapacity 0 s.defbytes.toNat s
  checkSpan 0 t .write s
  return { writeBits 0 (headerBits s ++ payloadBits s) s with bitpos := BitVec.ofNat 32 t }

/-- EMBED (rule R280). -/
def execEmbed (s : State) : Host.Outcome State Fault Refusal := command embedBody s

/-- The pseudocode of EXTRACT: HDRGET's, then PAYGET's (rule R285). -/
def extractBody (s : State) : Run State := do
  let s ← hdrgetBody s
  paygetBody s

/-- EXTRACT (rule R285). -/
def execExtract (s : State) : Host.Outcome State Fault Refusal := command extractBody s

end Sys2Proof.Machine
end

