-- ==== Sys2Proof/Machine/Flattener.lean ====
section
/-! DEFINITION. The commands of PCSF, the pixel-channel-stream flattener (spec 41_flattener.md rules R162 to R165). -/

namespace Sys2Proof.Machine

/-- FLAT (rule R162): where carrier byte IDX lies; an index outside the carrier is XVALID = 0, no fault. -/
def execFlat (s : State) : Host.Outcome State Fault Refusal := command (fun s => .ok (locate s.idx.toNat s)) s

/-- The pseudocode of UNFLAT (rule R163). -/
def unflatBody (s : State) : Run State := do
  require (s.xx.toNat < s.imgw.toNat ∧ s.xy.toNat < s.imgh.toNat ∧ s.xch.toNat ≠ 3) .paramError 5 0 s
  return { s with idx := BitVec.ofNat 24 (unflat s.imgw.toNat s.xx.toNat s.xy.toNat s.xch.toNat) }

/-- UNFLAT (rule R163). -/
def execUnflat (s : State) : Host.Outcome State Fault Refusal := command unflatBody s

/-- The pseudocode of CARRD (rule R164). -/
def carrdBody (s : State) : Run State := do
  require (s.idx.toNat < carLen s) .paramError 4 s.idx.toNat s
  return { s with data := (carRead s.idx.toNat s).setWidth 32 }

/-- CARRD (rule R164). -/
def execCarrd (s : State) : Host.Outcome State Fault Refusal := command carrdBody s

/-- The pseudocode of CARWR (rule R165). -/
def carwrBody (s : State) : Run State := do
  require (s.idx.toNat < carLen s) .paramError 4 s.idx.toNat s
  return carWrite s.idx.toNat (s.data.setWidth 8) s

/-- CARWR (rule R165). -/
def execCarwr (s : State) : Host.Outcome State Fault Refusal := command carwrBody s

end Sys2Proof.Machine
end

