-- ==== Sys2Proof/Machine/System.lean ====
section
/-! DEFINITION. The two commands that belong to no unit (spec 40_system.md rules R145, R146). -/

namespace Sys2Proof.Machine

/-- NOP (rule R145): nothing. -/
def execNop (s : State) : Host.Outcome State Fault Refusal := command .ok s

/-- RESET (rule R146): the only command accepted while FAULT ≠ 0, and the only way out of that state. -/
def execReset (s : State) : Host.Outcome State Fault Refusal := .next (resetRegs s)

end Sys2Proof.Machine
end

