-- ==== Sys2Proof/Machine/Translator.lean ====
section
/-! DEFINITION. The commands of BAT and LBM: the translator, the zone commands and the bit cursor
(spec 42_translator_mux.md rules R190 to R198). -/

namespace Sys2Proof.Machine

/-- The pseudocode of XLATE (rule R190). -/
def xlateBody (s : State) : Run State := do
  let k := s.bitpos.toNat
  require (¬ (needw k ∧ s.lsbw = 0)) .paramError 1 k s
  let ip := translate k s.lsbw.toNat
  return locate ip.1 { s with xbyte := BitVec.ofNat 32 ip.1, xbit := BitVec.ofNat 3 ip.2 }

/-- XLATE (rule R190). -/
def execXlate (s : State) : Host.Outcome State Fault Refusal := command xlateBody s

/-- The two tests of ZONERD and ZONEWR, in their order (rules R191, R192). -/
def checkZone (s : State) : Run Unit := do
  require (¬ (4 ≤ s.idx.toNat ∧ s.lsbw = 0)) .paramError 1 s.idx.toNat s
  require (s.idx.toNat < carLen s) .paramError 4 s.idx.toNat s

/-- The pseudocode of ZONERD (rule R191). -/
def zonerdBody (s : State) : Run State := do
  checkZone s
  let i := s.idx.toNat
  return { s with data := (zoneext (carRead i s) (ew i s.lsbw.toNat)).setWidth 32 }

/-- ZONERD (rule R191). -/
def execZonerd (s : State) : Host.Outcome State Fault Refusal := command zonerdBody s

/-- The pseudocode of ZONEWR (rule R192). -/
def zonewrBody (s : State) : Run State := do
  checkZone s
  let i := s.idx.toNat
  return carWrite i (zoneins (carRead i s) (s.data.setWidth 8) (ew i s.lsbw.toNat)) s

/-- ZONEWR (rule R192). -/
def execZonewr (s : State) : Host.Outcome State Fault Refusal := command zonewrBody s

/-- Read n bits at the cursor into DATA and advance the cursor (rules R195, R197). -/
def cursorRead (n : Nat) (s : State) : Run State := do
  let k := s.bitpos.toNat
  let v ← getField k n s
  return { s with data := BitVec.ofNat 32 v, bitpos := BitVec.ofNat 32 (k + n) }

/-- Write the n low bits of DATA at the cursor and advance the cursor (rules R196, R198). -/
def cursorWrite (n : Nat) (s : State) : Run State := do
  let k := s.bitpos.toNat
  checkSpan k n .write s
  return { writeField k s.data.toNat n s with bitpos := BitVec.ofNat 32 (k + n) }

/-- BITRD (rule R195). -/
def execBitrd (s : State) : Host.Outcome State Fault Refusal := command (cursorRead 1) s

/-- BITWR (rule R196). -/
def execBitwr (s : State) : Host.Outcome State Fault Refusal := command (cursorWrite 1) s

/-- A count no legal word carries: the word of the command is an illegal one, so it is answered as dispatch answers that
word (30_encoding.md rules R103, R104; log entry 9). The decoder never gives such a command. -/
def checkCount (i : Instr) (s : State) : Run Unit :=
  require (i.wellFormed = true) .illegalCommand 0 (encode i).toNat s

/-- The pseudocode of FLDRD n (rule R197). -/
def fldrdBody (n : BitVec 6) (s : State) : Run State := do
  checkCount (.fldrd n) s
  cursorRead n.toNat s

/-- FLDRD n (rule R197). -/
def execFldrd (n : BitVec 6) (s : State) : Host.Outcome State Fault Refusal := command (fldrdBody n) s

/-- The pseudocode of FLDWR n (rule R198). -/
def fldwrBody (n : BitVec 6) (s : State) : Run State := do
  checkCount (.fldwr n) s
  cursorWrite n.toNat s

/-- FLDWR n (rule R198). -/
def execFldwr (n : BitVec 6) (s : State) : Host.Outcome State Fault Refusal := command (fldwrBody n) s

end Sys2Proof.Machine
end

