-- ==== Sys2Proof/Machine/Dispatch.lean ====
section
/-! DEFINITION. One arm per command (spec 40_system.md rule R143, 30_encoding.md rule R102). -/

namespace Sys2Proof.Machine

def exec (i : Instr) (s : State) : Host.Outcome State Fault Refusal :=
  match i with
  | .nop => Sys2Proof.Machine.execNop s
  | .reset => Sys2Proof.Machine.execReset s
  | .flat => Sys2Proof.Machine.execFlat s
  | .unflat => Sys2Proof.Machine.execUnflat s
  | .carrd => Sys2Proof.Machine.execCarrd s
  | .carwr => Sys2Proof.Machine.execCarwr s
  | .xlate => Sys2Proof.Machine.execXlate s
  | .zonerd => Sys2Proof.Machine.execZonerd s
  | .zonewr => Sys2Proof.Machine.execZonewr s
  | .bitrd => Sys2Proof.Machine.execBitrd s
  | .bitwr => Sys2Proof.Machine.execBitwr s
  | .fldrd n => Sys2Proof.Machine.execFldrd n s
  | .fldwr n => Sys2Proof.Machine.execFldwr n s
  | .hdrbuild => Sys2Proof.Machine.execHdrbuild s
  | .hdrput => Sys2Proof.Machine.execHdrput s
  | .hdrget => Sys2Proof.Machine.execHdrget s
  | .capchk => Sys2Proof.Machine.execCapchk s
  | .payput => Sys2Proof.Machine.execPayput s
  | .payget => Sys2Proof.Machine.execPayget s
  | .embed => Sys2Proof.Machine.execEmbed s
  | .extract => Sys2Proof.Machine.execExtract s

end Sys2Proof.Machine
end

