-- ==== Sys2Proof/Machine/Registers.lean ====
section
/-! DEFINITION. The register map of the bus and the two register accesses (spec 10_state.md rule R21, 40_system.md rules
R140, R141). -/

namespace Sys2Proof.Machine

/-- The bus index of a register (10_state.md rule R21). -/
def Reg.index : Reg → Nat
  | .cmd => 0x000
  | .status => 0x001
  | .finfo => 0x002
  | .imgw => 0x003
  | .imgh => 0x004
  | .lsbw => 0x005
  | .bitpos => 0x006
  | .idx => 0x007
  | .data => 0x008
  | .paylen => 0x009
  | .extlen => 0x00A
  | .hcode => 0x00B
  | .hwidth => 0x00C
  | .hheight => 0x00D
  | .filesz => 0x00E
  | .hdrsz => 0x00F
  | .xbyte => 0x010
  | .xbit => 0x011
  | .xpix => 0x012
  | .xx => 0x013
  | .xy => 0x014
  | .xch => 0x015
  | .capneed => 0x016
  | .defbits => 0x017
  | .defbytes => 0x018
  | .defpix => 0x019
  | .nbytes => 0x01A
  | .ext j => 0x100 + j.val

/-- The registers other than EXT, in the order of their indices. -/
def lowRegs : List Reg :=
  [.cmd, .status, .finfo, .imgw, .imgh, .lsbw, .bitpos, .idx, .data, .paylen, .extlen, .hcode, .hwidth, .hheight,
   .filesz, .hdrsz, .xbyte, .xbit, .xpix, .xx, .xy, .xch, .capneed, .defbits, .defbytes, .defpix, .nbytes]

/-- The register at a bus index; none for an unmapped index (10_state.md rule R21). -/
def regAt (index : Nat) : Option Reg :=
  if h : 0x100 ≤ index ∧ index < 0x100 + 243 then some (.ext ⟨index - 0x100, by omega⟩)
  else lowRegs[index]?

/-- The value `RD` gives for a register, zero-extended to 64 bits; CMD reads 0 (40_system.md rule R140). -/
def readReg : Reg → State → BitVec 64
  | .cmd, _ => 0
  | .status, s => (statusView s).setWidth 64
  | .finfo, s => s.finfo
  | .imgw, s => s.imgw.setWidth 64
  | .imgh, s => s.imgh.setWidth 64
  | .lsbw, s => s.lsbw.setWidth 64
  | .bitpos, s => s.bitpos.setWidth 64
  | .idx, s => s.idx.setWidth 64
  | .data, s => s.data.setWidth 64
  | .paylen, s => s.paylen.setWidth 64
  | .extlen, s => s.extlen.setWidth 64
  | .hcode, s => s.hcode.setWidth 64
  | .hwidth, s => s.hwidth.setWidth 64
  | .hheight, s => s.hheight.setWidth 64
  | .filesz, s => s.filesz.setWidth 64
  | .hdrsz, s => s.hdrsz.setWidth 64
  | .xbyte, s => s.xbyte.setWidth 64
  | .xbit, s => s.xbit.setWidth 64
  | .xpix, s => s.xpix.setWidth 64
  | .xx, s => s.xx.setWidth 64
  | .xy, s => s.xy.setWidth 64
  | .xch, s => s.xch.setWidth 64
  | .capneed, s => s.capneed.setWidth 64
  | .defbits, s => s.defbits.setWidth 64
  | .defbytes, s => s.defbytes.setWidth 64
  | .defpix, s => s.defpix.setWidth 64
  | .nbytes, s => BitVec.ofNat 64 (carLen s)
  | .ext j, s => (extRead j.val s).setWidth 64

/-- The value of `RD index`: the register's, 0 for an unmapped index (40_system.md rule R140). -/
def readIndex (index : BitVec 12) (s : State) : BitVec 64 :=
  match regAt index.toNat with
  | some r => readReg r s
  | none => 0

/-- Store the low bits of the data in an RW register; nothing for an RO one (40_system.md rule R141). CMD is not written
through this operation: a write to it executes a command (rule R143). -/
def writeReg : Reg → BitVec 64 → State → State
  | .imgw, d, s => { s with imgw := d.setWidth 11 }
  | .imgh, d, s => { s with imgh := d.setWidth 11 }
  | .lsbw, d, s => { s with lsbw := d.setWidth 3 }
  | .bitpos, d, s => { s with bitpos := d.setWidth 32 }
  | .idx, d, s => { s with idx := d.setWidth 24 }
  | .data, d, s => { s with data := d.setWidth 32 }
  | .paylen, d, s => { s with paylen := d.setWidth 29 }
  | .extlen, d, s => { s with extlen := d.setWidth 8 }
  | .xx, d, s => { s with xx := d.setWidth 11 }
  | .xy, d, s => { s with xy := d.setWidth 11 }
  | .xch, d, s => { s with xch := d.setWidth 2 }
  | .ext j, d, s => extWrite j.val (d.setWidth 8) s
  | .cmd, _, s | .status, _, s | .finfo, _, s | .hcode, _, s | .hwidth, _, s | .hheight, _, s | .filesz, _, s
  | .hdrsz, _, s | .xbyte, _, s | .xbit, _, s | .xpix, _, s | .capneed, _, s | .defbits, _, s | .defbytes, _, s
  | .defpix, _, s | .nbytes, _, s => s

/-- `WR index, data` with index ≠ 0x000: nothing while FAULT ≠ 0, nothing for an unmapped index (40_system.md rule
R141). -/
def writeIndex (index : BitVec 12) (data : BitVec 64) (s : State) : State :=
  if s.fault = .noFault then
    match regAt index.toNat with
    | some r => writeReg r data s
    | none => s
  else s

end Sys2Proof.Machine
end

