-- ==== Sys2Proof/Machine/Bus.lean ====
section
/-! DEFINITION. What each host move does: the two bus transactions, the host's own access to PIX and PAY, the hardware
reset (spec 40_system.md rules R140 to R143, 70_reset_and_hazards.md rules R340, R348). -/

namespace Sys2Proof.Machine

/-- `WR 0x000, data` (40_system.md rule R143). The test of FAULT stands in each command's meaning (Machine.command), and
here for illegal data; RESET's one data value, 1, decodes to the one command that has no such test. -/
def writeCmd (data : BitVec 64) (s : State) : Host.Outcome State Fault Refusal :=
  match decode data with
  | .ok i => exec i s
  | .error _ => command (fail .illegalCommand 0 data.toNat) s

/-- A bus transaction (30_encoding.md rule R100). A read changes no state of BPAT: it gives the host its value. -/
def transact : Transaction → State → Host.Outcome State Fault Refusal
  | .rd index, s => .next { s with returned := some (readIndex index s) }
  | .wr index data, s => if index = 0 then writeCmd data s else .next (writeIndex index data s)

/-- The PIX cell (x, y, c) exists (20_memory.md rule R71). -/
def isPixCell (x y c : Nat) : Bool := decide (x < Config.maxDim ∧ y < Config.maxDim ∧ c < 3)

/-- One host move (70_reset_and_hazards.md rule R348). PIX and PAY are open to the host between commands, in the faulted
state too: the block has no part in it. -/
def hostMove : HostMove → State → Host.Outcome State Fault Refusal
  | .bus t, s => transact t s
  | .pixRead x y c, s =>
    if isPixCell x y c then .next { s with returned := some ((pixByte (pixKey x y c) s).setWidth 64) }
    else .fault .noPixCell
  | .pixWrite x y c v, s => if isPixCell x y c then .next (setPixByte (pixKey x y c) v s) else .fault .noPixCell
  | .payRead j, s =>
    if j < s.payCap.toNat then .next { s with returned := some ((payRead j s).setWidth 64) } else .fault .noPayCell
  | .payWrite j v, s => if j < s.payCap.toNat then .next (payWrite j v s) else .fault .noPayCell
  | .hardReset, s => .next (resetRegs s)

end Sys2Proof.Machine
end

