-- ==== Sys2Proof/Machine/Step.lean ====
section
/-! DEFINITION. One step: the host's next move is taken (spec 10_state.md rule R24, 70_reset_and_hazards.md rules R348,
R349). -/

namespace Sys2Proof.Machine

/-- Take the host's next move, to its end; with none to come the block waits and nothing changes (rules R340, R10; log
entries 1 and 7). -/
def step (s : State) : Host.Outcome State Fault Refusal :=
  match s.pending with
  | [] => .next s
  | m :: rest => hostMove m { s with pending := rest }

/-- The host's next move becomes the write of this command word to CMD: the word's low nbits bits, the bits above them 0,
as the 64-bit data (30_encoding.md rule R101; log entry 1). -/
def State.withFetchWord (s : State) (nbits w : Nat) : State :=
  { s with pending := .bus (.wr 0 (BitVec.ofNat 64 (w % 2 ^ nbits))) :: s.pending }

end Sys2Proof.Machine
end

