-- ==== Sys2Proof/Machine/Assembler.lean ====
section
/-! DEFINITION. The assembler's lines and pseudo-instructions as host moves (spec 30_encoding.md rules R106, R107). -/

namespace Sys2Proof.Machine.Asm

/-- `wr REG, value` (rule R106). -/
def wr (r : Reg) (v : Nat) : HostMove := .bus (.wr (BitVec.ofNat 12 r.index) (BitVec.ofNat 64 v))

/-- `rd REG` (rule R106). -/
def rd (r : Reg) : HostMove := .bus (.rd (BitVec.ofNat 12 r.index))

/-- A mnemonic line: the command word written to CMD (rule R106). -/
def cmd (i : Instr) : HostMove := .bus (.wr 0 (encode i))

/-- `setdim w, h` (rule R107). -/
def setdim (w h : Nat) : List HostMove := [wr .imgw w, wr .imgh h]

/-- `seek k` (rule R107). -/
def seek (k : Nat) : List HostMove := [wr .bitpos k]

/-- The writes of extension bytes from EXT[j] on: bus index 0x100 + j (rules R106, R107). -/
def extFrom : Nat → List Byte → List HostMove
  | _, [] => []
  | j, b :: l => .bus (.wr (BitVec.ofNat 12 (0x100 + j)) (b.setWidth 64)) :: extFrom (j + 1) l

/-- `setext "c0c1…"` (rule R107). -/
def setext (e : List Byte) : List HostMove := extFrom 0 e ++ [wr .extlen e.length]

/-- `encode w` (rule R107). -/
def encodeAt (w : Nat) : List HostMove := [wr .lsbw w, cmd .embed]

/-- `decode` (rule R107). -/
def decodeFrame : List HostMove := [cmd .extract]

end Sys2Proof.Machine.Asm
end

