-- ==== Sys2Proof/Safety.lean ====
section
/-! DEFINITION. The terms claims about this machine are made in: live and faulted states, spans inside the carrier, what
a write to the carrier did, a header on the carrier, which commands may write what, good ends of a run, and the invariant
every step keeps. -/

namespace Sys2Proof.Machine

/-- No fault is recorded: commands are accepted (spec 10_state.md rule R31, 60_exceptions.md rule R312). -/
abbrev Live (s : State) : Prop := s.fault = .noFault

/-- A run that has ended well: nothing left to do and no fault (70_reset_and_hazards.md rule R349). -/
abbrev EndsWell (s : State) : Prop := s.pending = [] ∧ Live s

/-- A decode that has ended well: also PHASE = 7 (rule R349). -/
abbrev DecodeEndsWell (s : State) : Prop := EndsWell s ∧ s.phase = .done

/-! ### Command data (30_encoding.md rules R101 to R104) -/

/-- The operation codes of the commands that take no count (rule R102). -/
def plainOpcodes : List Nat :=
  [0x00, 0x01, 0x10, 0x11, 0x12, 0x13, 0x20, 0x21, 0x22, 0x23, 0x24, 0x30, 0x31, 0x32, 0x38, 0x40, 0x41, 0x42, 0x43]

/-- The data of a write to CMD is one of the 21 commands (rules R101 to R104), said over the number: a plain opcode with
every other bit 0, or FLDRD or FLDWR with a count of 1 to 32 in bits 13:8 and every other bit 0. -/
abbrev LegalData (d : Nat) : Prop :=
  d ∈ plainOpcodes ∨ ∃ n, n < 33 ∧ 1 ≤ n ∧ (d = 0x25 + 256 * n ∨ d = 0x26 + 256 * n)

/-! ### Spans of logical bits -/

/-- What CheckSpan(k, n, _) demands of a span of n ≥ 1 bits: a width if the last bit needs one, and the last bit's byte
inside the carrier (42_translator_mux.md rule R185). -/
abbrev spanFits (k n : Nat) (s : State) : Prop :=
  (k + n - 1 ≤ 4 ∨ s.lsbw ≠ 0) ∧ (translate (k + n - 1) s.lsbw.toNat).1 < carLen s

/-- The PIX cell number and the bit position of logical bit k (20_memory.md rule R82). -/
abbrev bitCell (s : State) (k : Nat) : Nat × Nat :=
  (carKey s.imgw.toNat (translate k s.lsbw.toNat).1, (translate k s.lsbw.toNat).2)

/-- PIX of t is PIX of s with the bits L written at logical bits k, k+1, … and no other bit of any cell changed, the
cells computed in s (rule R186). -/
abbrev WroteBits (k : Nat) (l : Bits) (s t : State) : Prop :=
  (∀ j (h : j < l.length), (pixByte (bitCell s (k + j)).1 t).getLsbD (bitCell s (k + j)).2 = l[j]) ∧
  (∀ a p, (∀ j, j < l.length → bitCell s (k + j) ≠ (a, p)) → (pixByte a t).getLsbD p = (pixByte a s).getLsbD p)

/-! ### A header on the carrier (43_header.md rules R240, R241) -/

/-- The state with LSBW as the frame on the carrier says: its logical bits 2 to 4. -/
def atFrameWidth (s : State) : State := { s with lsbw := BitVec.ofNat 3 (readField 2 3 s) }

/-- The b-bit field at logical bit k of the frame on the carrier, read at the frame's own width. -/
def frameField (k b : Nat) (s : State) : Nat := readField k b (atFrameWidth s)

/-- Bits 0 to 4 are on the carrier and pass checks 1 and 2: code is 3, lsbWidth is not 0. -/
abbrev BootstrapOk (s : State) : Prop := 5 ≤ carLen s ∧ readField 0 2 s = 3 ∧ readField 2 3 s ≠ 0

/-- Bits 0 to 50 are on the carrier and pass checks 1 to 7. -/
abbrev DimensionsOk (s : State) : Prop :=
  BootstrapOk s ∧ spanFits 0 51 (atFrameWidth s) ∧
  frameField 5 8 s = 0x78 ∧ frameField 24 8 s = 0x78 ∧ frameField 43 8 s = 0x78 ∧
  frameField 13 11 s = s.imgw.toNat ∧ frameField 32 11 s = s.imgh.toNat

/-- Checks 1 to 7 pass and n extension bytes, n up to 243, stand on the carrier behind them, none of them the
terminator. -/
abbrev ExtensionRuns (n : Nat) (s : State) : Prop :=
  DimensionsOk s ∧ n ≤ 243 ∧ (n = 0 ∨ spanFits 51 (8 * n) (atFrameWidth s)) ∧
  ∀ j, j < n → frameField (51 + 8 * j) 8 s ≠ 0x0A

/-- A whole valid header with n extension bytes stands on the carrier. -/
abbrev HeaderOk (n : Nat) (s : State) : Prop :=
  ExtensionRuns n s ∧ spanFits 0 (99 + 8 * n) (atFrameWidth s) ∧
  frameField (51 + 8 * n) 8 s = 0x0A ∧ frameField (91 + 8 * n) 8 s = 0x78

/-- EXT of t: the n extension bytes of the frame on the carrier of s, and above them the bytes of s. -/
abbrev TookExtension (n : Nat) (s t : State) : Prop :=
  (∀ j, j < n → extRead j t = BitVec.ofNat 8 (frameField (51 + 8 * j) 8 s)) ∧
  (∀ j, n ≤ j → extRead j t = extRead j s)

/-- The state of HDRGET behind the bootstrap: PHASE 1, the code, the width and the cursor (rule R240). -/
def gotBootstrap (s : State) : State :=
  { s with phase := .bootstrap, hcode := BitVec.ofNat 2 (readField 0 2 s), lsbw := BitVec.ofNat 3 (readField 2 3 s)
           bitpos := 5 }

/-! ### The inputs of encode -/

/-- The extension holds no terminator byte: the side condition of the round trip (45_codec.md rule R290). -/
abbrev NoTerminator (s : State) : Prop := ∀ j, j < s.extlen.toNat → extRead j s ≠ 0x0A

/-- The state BuildHeader leaves when it does not fault (43_header.md rule R220). -/
def builtHeader (s : State) : State :=
  { s with hcode := 3, hwidth := s.imgw, hheight := s.imgh
           filesz := BitVec.ofNat 32 (8 * s.paylen.toNat), hdrsz := BitVec.ofNat 11 (99 + 8 * s.extlen.toNat) }

/-- HDRSZ, the length of the header the inputs describe (30_encoding.md rule R122). -/
def headerLen (s : State) : Nat := 99 + 8 * s.extlen.toNat

/-- T, the length of the frame the inputs describe (44_capacity.md rule R261). -/
def frameLen (s : State) : Nat := 99 + 8 * s.extlen.toNat + 8 * s.paylen.toNat

/-- The state CAPCHK leaves: the header built and the planner's figures for T bits on N carrier bytes
(44_capacity.md rules R260, R261). -/
def planned (s : State) : State :=
  { builtHeader s with
    capneed := BitVec.ofNat 33 ((frameLen s + s.lsbw.toNat - 1) / s.lsbw.toNat)
    fits := decide (frameLen s ≤ carLen s * s.lsbw.toNat)
    defbytes := BitVec.ofNat 33 (absDiff (carLen s) ((frameLen s + s.lsbw.toNat - 1) / s.lsbw.toNat))
    defbits := BitVec.ofNat 33 (absDiff (carLen s * s.lsbw.toNat) (frameLen s))
    defpix := BitVec.ofNat 32 (absDiff (carLen s) ((frameLen s + s.lsbw.toNat - 1) / s.lsbw.toNat) / 3) }

/-- The header bits of the inputs (30_encoding.md rule R123). -/
def inputHeader (s : State) : Bits :=
  serialize s.lsbw.toNat s.imgw.toNat s.imgh.toNat (extBytes s) (8 * s.paylen.toNat)

/-- The payload bits of the inputs (30_encoding.md rule R124). -/
def inputPayload (s : State) : Bits := bytebits (payBytes 0 s.paylen.toNat s)

/-! ### Which commands write what (10_state.md rules R21, R30, 20_memory.md rule R70) -/

/-- The commands that may write BITPOS. -/
def writesBitpos : Instr → Bool
  | .bitrd | .bitwr | .fldrd _ | .fldwr _ | .hdrput | .hdrget | .payput | .payget | .embed | .extract | .reset => true
  | .nop | .flat | .unflat | .carrd | .carwr | .xlate | .zonerd | .zonewr | .hdrbuild | .capchk => false

/-- The commands that may write LSBW, EXTLEN or EXT. -/
def writesFrameInputs : Instr → Bool
  | .hdrget | .extract | .reset => true
  | .nop | .flat | .unflat | .carrd | .carwr | .xlate | .zonerd | .zonewr | .bitrd | .bitwr | .fldrd _
  | .fldwr _ | .hdrbuild | .hdrput | .capchk | .payput | .payget | .embed => false

/-- The commands that may write HCODE, HWIDTH, HHEIGHT, FILESZ or HDRSZ. -/
def writesHeader : Instr → Bool
  | .hdrbuild | .hdrput | .capchk | .embed | .hdrget | .extract | .reset => true
  | .nop | .flat | .unflat | .carrd | .carwr | .xlate | .zonerd | .zonewr | .bitrd | .bitwr | .fldrd _
  | .fldwr _ | .payput | .payget => false

/-- The commands that may write FITS or the planner registers. -/
def writesPlanner : Instr → Bool
  | .capchk | .embed | .reset => true
  | .nop | .flat | .unflat | .carrd | .carwr | .xlate | .zonerd | .zonewr | .bitrd | .bitwr | .fldrd _
  | .fldwr _ | .hdrbuild | .hdrput | .hdrget | .payput | .payget | .extract => false

/-- The commands that may write XPIX, XX, XY, XCH or XVALID. -/
def writesLocation : Instr → Bool
  | .flat | .xlate | .reset => true
  | .nop | .unflat | .carrd | .carwr | .zonerd | .zonewr | .bitrd | .bitwr | .fldrd _ | .fldwr _
  | .hdrbuild | .hdrput | .hdrget | .capchk | .payput | .payget | .embed | .extract => false

/-- The commands that may write DATA. -/
def writesData : Instr → Bool
  | .carrd | .zonerd | .bitrd | .fldrd _ | .reset => true
  | .nop | .flat | .unflat | .carwr | .xlate | .zonewr | .bitwr | .fldwr _ | .hdrbuild | .hdrput
  | .hdrget | .capchk | .payput | .payget | .embed | .extract => false

/-- The commands that may write PAYLEN. -/
def writesPaylen : Instr → Bool
  | .payget | .extract | .reset => true
  | .nop | .flat | .unflat | .carrd | .carwr | .xlate | .zonerd | .zonewr | .bitrd | .bitwr | .fldrd _
  | .fldwr _ | .hdrbuild | .hdrput | .hdrget | .capchk | .payput | .embed => false

/-- The commands that may write PHASE. -/
def writesPhase : Instr → Bool
  | .hdrget | .payget | .extract | .reset => true
  | .nop | .flat | .unflat | .carrd | .carwr | .xlate | .zonerd | .zonewr | .bitrd | .bitwr | .fldrd _
  | .fldwr _ | .hdrbuild | .hdrput | .capchk | .payput | .embed => false

/-- The commands that may write PIX. -/
def writesPix : Instr → Bool
  | .carwr | .zonewr | .bitwr | .fldwr _ | .hdrput | .payput | .embed => true
  | .nop | .reset | .flat | .unflat | .carrd | .xlate | .zonerd | .bitrd | .fldrd _ | .hdrbuild
  | .hdrget | .capchk | .payget | .extract => false

/-- The commands that may write PAY. -/
def writesPay : Instr → Bool
  | .payget | .extract => true
  | .nop | .reset | .flat | .unflat | .carrd | .carwr | .xlate | .zonerd | .zonewr | .bitrd | .bitwr
  | .fldrd _ | .fldwr _ | .hdrbuild | .hdrput | .hdrget | .capchk | .payput | .embed => false

/-! ### The invariant -/

/-- The fault record agrees with PHASE: with no fault, PHASE is 0, 5 or 7 (10_state.md rule R32); with one, the sub-cause
is one the fault lists and PHASE is one in which it can be raised (60_exceptions.md rules R300 to R309;
93_implementation_defined.md V3, V4). -/
def faultShape : FaultCode → Nat → Phase → Bool
  | .noFault, sub, ph => sub == 0 && (ph == .idle || ph == .hdrDone || ph == .done)
  | .corruptedHeader, sub, .bootstrap => sub == 1 || sub == 2
  | .corruptedHeader, sub, .widthHeight => decide (3 ≤ sub ∧ sub ≤ 7)
  | .corruptedHeader, sub, .fileSize => sub == 8
  | .corruptedHeader, _, _ => false
  | .insufficientCapacity, sub, ph | .carrierOverrun, sub, ph | .illegalCommand, sub, ph =>
    sub == 0 && (ph == .idle || ph == .hdrDone || ph == .done)
  | .fileAccess, _, _ => false
  | .truncated, sub, ph => sub == ph.code
  | .lengthError, sub, ph => (sub == 1 || sub == 2) && ph == .payload
  | .extTooLong, sub, ph => sub == 0 && ph == .extension
  | .paramError, sub, .payload => sub == 1
  | .paramError, sub, ph => decide (1 ≤ sub ∧ sub ≤ 5) && (ph == .idle || ph == .hdrDone || ph == .done)

/-- HDRSZ is 0 or the size of a header with 0 to 243 extension bytes (30_encoding.md rule R122). -/
abbrev headerSizeOk (s : State) : Prop :=
  s.hdrsz.toNat = 0 ∨ (99 ≤ s.hdrsz.toNat ∧ s.hdrsz.toNat ≤ 2043 ∧ (s.hdrsz.toNat - 99) % 8 = 0)

/-- What every step keeps: both memories in canonical form and with cells that exist only, a consistent fault record,
FINFO 0 without a fault, XBIT a position of a payload zone, HDRSZ a header size, DEFPIX a third of DEFBYTES. -/
abbrev Inv (s : State) : Prop :=
  Memory.wf s.pix = true ∧ Memory.below Config.pixCells s.pix = true ∧
  Memory.wf s.pay = true ∧ Memory.below s.payCap.toNat s.pay = true ∧
  faultShape s.fault s.subcause.toNat s.phase = true ∧
  (s.fault = .noFault → s.finfo = 0) ∧
  s.xbit.toNat ≤ 6 ∧ headerSizeOk s ∧ s.defpix.toNat = s.defbytes.toNat / 3

end Sys2Proof.Machine
end

