-- ==== Sys2Proof/Certificates/Slice0/Obligations.lean ====
section
/-! DEFINITION. The statements for the provers. Each docstring names the rules of spec/ a statement formalises; where a
clause is the model's own choice it says so and names the log entry. -/

open Sys2Proof Sys2Proof.Machine

/-! ### Encoding -/

/-- Rules R101 to R103: the word of a well-formed command decodes to it, every count included. -/
def Obligations.DecodeOfEncodeIsTheCommand : Prop :=
  ∀ i : Instr, i.wellFormed = true → decode (encode i) = .ok i

/-- Rule R104: data that decodes to a command is that command's one encoding, so no bit of it is ignored. -/
def Obligations.EncodeOfDecodeIsTheData : Prop :=
  ∀ (d : BitVec 64) (i : Instr), decode d = .ok i → encode i = d ∧ i.wellFormed = true

/-- Rules R102, R103: some words written out from the opcode map. -/
def Obligations.SampleWordsDecode : Prop :=
  decode 0x00000000 = .ok .nop ∧ decode 0x00000010 = .ok .flat ∧ decode 0x00000020 = .ok .xlate ∧
  decode 0x00000B25 = .ok (.fldrd 11) ∧ decode 0x00002026 = .ok (.fldwr 32) ∧ decode 0x00000032 = .ok .hdrget ∧
  decode 0x00000038 = .ok .capchk ∧ decode 0x00000042 = .ok .embed ∧
  decode 0x00000025 = .error .badCount ∧ decode 0x00000110 = .error .noRow ∧ decode 0x100000001 = .error .highBits

/-- Rules R104, R311: in a live state, data that is not one of the 21 commands raises IllegalCommand with FINFO = the data
and changes nothing else; data that is one decodes and is executed. -/
def Obligations.IllegalDataRaisesIllegalCommand : Prop :=
  ∀ (s : State) (d : BitVec 64) (rest : List HostMove), Live s → s.pending = .bus (.wr 0 d) :: rest →
    (¬ LegalData d.toNat →
      step s = .next { s with pending := rest, fault := .illegalCommand, subcause := 0, finfo := d }) ∧
    (LegalData d.toNat → ∃ i, decode d = .ok i ∧ step s = exec i { s with pending := rest })

/-! ### The step, the bus, the terminal state, reset -/

/-- Rule R143: a write of a command's data to CMD runs that command; the step around it takes the move off the list. -/
def Obligations.StepRunsTheDecodedCommand : Prop :=
  ∀ (s : State) (d : BitVec 64) (i : Instr) (rest : List HostMove),
    s.pending = .bus (.wr 0 d) :: rest → decode d = .ok i → step s = exec i { s with pending := rest }

/-- Rule R140: a read gives the register's value zero-extended, 0 for CMD and for every unmapped index, STATUS from its
fields, NBYTES as 3·IMGW·IMGH; in every state, changing nothing of the block. -/
def Obligations.RegisterReadsGiveTheirValues : Prop :=
  ∀ s : State,
    (∀ index rest, s.pending = .bus (.rd index) :: rest →
      step s = .next { s with pending := rest, returned := some (readIndex index s) }) ∧
    readIndex 0x000 s = 0 ∧
    (readIndex 0x001 s).toNat =
      s.fault.code + 16 * s.subcause.toNat + 256 * s.phase.code + 2048 * s.fits.toNat + 4096 * s.xvalid.toNat ∧
    readIndex 0x002 s = s.finfo ∧
    (readIndex 0x003 s).toNat = s.imgw.toNat ∧ (readIndex 0x004 s).toNat = s.imgh.toNat ∧
    (readIndex 0x005 s).toNat = s.lsbw.toNat ∧ (readIndex 0x006 s).toNat = s.bitpos.toNat ∧
    (readIndex 0x007 s).toNat = s.idx.toNat ∧ (readIndex 0x008 s).toNat = s.data.toNat ∧
    (readIndex 0x009 s).toNat = s.paylen.toNat ∧ (readIndex 0x00A s).toNat = s.extlen.toNat ∧
    (readIndex 0x00B s).toNat = s.hcode.toNat ∧ (readIndex 0x00C s).toNat = s.hwidth.toNat ∧
    (readIndex 0x00D s).toNat = s.hheight.toNat ∧ (readIndex 0x00E s).toNat = s.filesz.toNat ∧
    (readIndex 0x00F s).toNat = s.hdrsz.toNat ∧ (readIndex 0x010 s).toNat = s.xbyte.toNat ∧
    (readIndex 0x011 s).toNat = s.xbit.toNat ∧ (readIndex 0x012 s).toNat = s.xpix.toNat ∧
    (readIndex 0x013 s).toNat = s.xx.toNat ∧ (readIndex 0x014 s).toNat = s.xy.toNat ∧
    (readIndex 0x015 s).toNat = s.xch.toNat ∧ (readIndex 0x016 s).toNat = s.capneed.toNat ∧
    (readIndex 0x017 s).toNat = s.defbits.toNat ∧ (readIndex 0x018 s).toNat = s.defbytes.toNat ∧
    (readIndex 0x019 s).toNat = s.defpix.toNat ∧
    (readIndex 0x01A s).toNat = 3 * s.imgw.toNat * s.imgh.toNat ∧
    (∀ j (h : j < 243), (readIndex (BitVec.ofNat 12 (0x100 + j)) s).toNat = s.ext[j].toNat) ∧
    (∀ index : BitVec 12, (0x01B ≤ index.toNat ∧ index.toNat < 0x100) ∨ 0x1F3 ≤ index.toNat → readIndex index s = 0)

/-- Rule R141: in a live state a write to an RW register of width n stores the data's low n bits and changes nothing else;
a write to an RO or unmapped index changes nothing; in a faulted state no write to a register changes anything. -/
def Obligations.RegisterWritesKeepTheLowBits : Prop :=
  ∀ (s : State) (index : BitVec 12) (d : BitVec 64) (rest : List HostMove),
    s.pending = .bus (.wr index d) :: rest → index ≠ 0 →
    (¬ Live s → step s = .next { s with pending := rest }) ∧
    (Live s →
      (index = 0x003 → step s = .next { s with pending := rest, imgw := BitVec.ofNat 11 d.toNat }) ∧
      (index = 0x004 → step s = .next { s with pending := rest, imgh := BitVec.ofNat 11 d.toNat }) ∧
      (index = 0x005 → step s = .next { s with pending := rest, lsbw := BitVec.ofNat 3 d.toNat }) ∧
      (index = 0x006 → step s = .next { s with pending := rest, bitpos := BitVec.ofNat 32 d.toNat }) ∧
      (index = 0x007 → step s = .next { s with pending := rest, idx := BitVec.ofNat 24 d.toNat }) ∧
      (index = 0x008 → step s = .next { s with pending := rest, data := BitVec.ofNat 32 d.toNat }) ∧
      (index = 0x009 → step s = .next { s with pending := rest, paylen := BitVec.ofNat 29 d.toNat }) ∧
      (index = 0x00A → step s = .next { s with pending := rest, extlen := BitVec.ofNat 8 d.toNat }) ∧
      (index = 0x013 → step s = .next { s with pending := rest, xx := BitVec.ofNat 11 d.toNat }) ∧
      (index = 0x014 → step s = .next { s with pending := rest, xy := BitVec.ofNat 11 d.toNat }) ∧
      (index = 0x015 → step s = .next { s with pending := rest, xch := BitVec.ofNat 2 d.toNat }) ∧
      (∀ j (h : j < 243), index.toNat = 0x100 + j →
        step s = .next { s with pending := rest, ext := s.ext.set j (BitVec.ofNat 8 d.toNat) h }) ∧
      (index.toNat ∉ [3, 4, 5, 6, 7, 8, 9, 10, 0x013, 0x014, 0x015] →
        ¬ (0x100 ≤ index.toNat ∧ index.toNat < 0x1F3) → step s = .next { s with pending := rest }))

/-- Rule R312: while FAULT ≠ 0 every read works, every register write and every command word but RESET's changes nothing,
and RESET clears the fault and every register, leaving PIX and PAY. -/
def Obligations.FaultedStateIsTerminal : Prop :=
  ∀ (s : State) (rest : List HostMove), ¬ Live s →
    (∀ index, s.pending = .bus (.rd index) :: rest →
      step s = .next { s with pending := rest, returned := some (readIndex index s) }) ∧
    (∀ index d, s.pending = .bus (.wr index d) :: rest → ¬ (index = 0 ∧ d = 1) →
      step s = .next { s with pending := rest }) ∧
    (s.pending = .bus (.wr 0 1) :: rest →
      ∃ t, step s = .next t ∧ Live t ∧ (∀ index, readIndex index t = 0) ∧ t.pix = s.pix ∧ t.pay = s.pay ∧
        t.pending = rest)

/-- Rule R146: RESET, in every state, faulted or not, leaves every register, flag and EXT byte 0 and PIX and PAY as they
were; every other command is refused without any change while a fault is recorded; the hardware reset has the same effect
as RESET. The model's own fields stay too (log entries 1, 2, 6, 12). -/
def Obligations.ResetClearsEveryRegister : Prop :=
  decode 0x01 = .ok .reset ∧
  ∀ s : State,
    (∃ t, exec .reset s = .next t ∧ Live t ∧ (∀ index, readIndex index t = 0) ∧
      t = { State.reset with
            pix := s.pix, pay := s.pay, payCap := s.payCap, pending := s.pending, returned := s.returned }) ∧
    (∀ i, i ≠ .reset → ¬ Live s → exec i s = .next s) ∧
    (∀ rest, s.pending = .hardReset :: rest → step s = exec .reset { s with pending := rest })

/-- Rule R50: after reset every register reads 0, EXT too, no fault is recorded, and PIX and PAY hold the free power-on
bytes (log entry 5). -/
def Obligations.ResetStateReadsZero : Prop :=
  Live State.reset ∧ (∀ index, readIndex index State.reset = 0) ∧
  (∀ a, pixByte a State.reset = Config.pixPowerOn a) ∧ (∀ j, payRead j State.reset = Config.payPowerOn j)

/-- Rule R145: NOP leaves every register and memory cell as it was, in every state. -/
def Obligations.NopChangesNothing : Prop :=
  decode 0x00 = .ok .nop ∧
  ∀ s : State, exec .nop s = .next s

/-- Rule R348: every command and every bus transaction ends; the model stops on none. -/
def Obligations.EveryTransactionEnds : Prop :=
  (∀ (i : Instr) (s : State), ∃ t, exec i s = .next t) ∧ (∀ (m : Transaction) (s : State), ∃ t, transact m s = .next t)

/-- Rules R348, R71: a host write of an existing PIX or PAY cell changes that cell alone; a cell that does not exist stops
the model (its own fault, log entry 3). -/
def Obligations.HostCellWritesChangeOneCell : Prop :=
  ∀ (s : State) (rest : List HostMove) (v : Byte),
    (∀ x y c, s.pending = .pixWrite x y c v :: rest →
      (x < 2047 ∧ y < 2047 ∧ c < 3 → ∃ t, step s = .next t ∧ t = { s with pending := rest, pix := t.pix } ∧
        pixByte (pixKey x y c) t = v ∧
        ∀ x' y' c', x' < 2047 → y' < 2047 → c' < 3 → (x', y', c') ≠ (x, y, c) →
          pixByte (pixKey x' y' c') t = pixByte (pixKey x' y' c') s) ∧
      (¬ (x < 2047 ∧ y < 2047 ∧ c < 3) → step s = .fault .noPixCell)) ∧
    (∀ j, s.pending = .payWrite j v :: rest →
      (j < s.payCap.toNat → ∃ t, step s = .next t ∧ t = { s with pending := rest, pay := t.pay } ∧
        payRead j t = v ∧ ∀ j', j' ≠ j → payRead j' t = payRead j' s) ∧
      (s.payCap.toNat ≤ j → step s = .fault .noPayCell))

/-- The model's own shape (log entries 1, 3, 6, 7): with no host move to come a step changes nothing; no step refuses; a
step that stops took a host move that names a PIX or PAY cell that does not exist; every other step takes one move and
leaves PAY_CAP alone. -/
def Obligations.OnlyMissingCellsStopTheModel : Prop :=
  ∀ s : State,
    (s.pending = [] → step s = .next s) ∧
    (∀ r, step s ≠ .refused r) ∧
    (∀ f, step s = .fault f → ∃ m rest, s.pending = m :: rest ∧
      ((∃ x y c, ¬ (x < 2047 ∧ y < 2047 ∧ c < 3) ∧ (m = .pixRead x y c ∨ ∃ v, m = .pixWrite x y c v)) ∨
       (∃ j, s.payCap.toNat ≤ j ∧ (m = .payRead j ∨ ∃ v, m = .payWrite j v)))) ∧
    (∀ t, step s = .next t → t.payCap = s.payCap ∧ t.pending = s.pending.tail)

/-- Rule R107: the host moves of `setext` leave the extension in EXT[0..n−1] and its length in EXTLEN, and nothing else
changed. -/
def Obligations.SetextLoadsTheExtension : Prop :=
  ∀ (e : List Byte) (s : State), e.length ≤ 243 → Live s → s.pending = Asm.setext e →
    ∃ t, Sys2Proof.core.run (Asm.setext e).length s = .next t ∧
      t = { s with pending := [], extlen := BitVec.ofNat 8 e.length, ext := t.ext } ∧
      (∀ j (h : j < e.length), extRead j t = e[j]) ∧ (∀ j, e.length ≤ j → extRead j t = extRead j s)

/-! ### PCSF, the flattener -/

/-- Rule R74: the flatten map and its inverse, on every image. -/
def Obligations.FlattenMapIsInvertible : Prop :=
  ∀ w h : Nat,
    (∀ i, i < 3 * w * h →
      pixelOf i = i / 3 ∧ chanOf i = i % 3 ∧ colOf w i = i / 3 % w ∧ rowOf w i = i / 3 / w ∧
      colOf w i < w ∧ rowOf w i < h ∧ chanOf i ≤ 2 ∧ unflat w (colOf w i) (rowOf w i) (chanOf i) = i) ∧
    (∀ x y c, x < w → y < h → c ≤ 2 →
      unflat w x y c = 3 * (y * w + x) + c ∧ unflat w x y c < 3 * w * h ∧
      colOf w (unflat w x y c) = x ∧ rowOf w (unflat w x y c) = y ∧ chanOf (unflat w x y c) = c)

/-- Rule R162: FLAT's whole effect; no other register and no memory cell changes, and an index outside the carrier is
XVALID = 0 and no fault. -/
def Obligations.FlatReportsTheCell : Prop :=
  decode 0x10 = .ok .flat ∧
  ∀ s : State, Live s →
    let i := s.idx.toNat
    let n := 3 * s.imgw.toNat * s.imgh.toNat
    exec .flat s = .next
      { s with
        xpix := BitVec.ofNat 32 (i / 3)
        xch := BitVec.ofNat 2 (i % 3)
        xx := if i < n then BitVec.ofNat 11 (i / 3 % s.imgw.toNat) else 0
        xy := if i < n then BitVec.ofNat 11 (i / 3 / s.imgw.toNat) else 0
        xvalid := decide (i < n) } ∧
    (i < n → i / 3 % s.imgw.toNat < 2 ^ 11 ∧ i / 3 / s.imgw.toNat < 2 ^ 11)

/-- Rule R163: UNFLAT's whole effect, and its fault. -/
def Obligations.UnflatGivesTheIndex : Prop :=
  decode 0x11 = .ok .unflat ∧
  ∀ s : State, Live s →
    (s.xx.toNat < s.imgw.toNat → s.xy.toNat < s.imgh.toNat → s.xch.toNat ≠ 3 →
      ∃ v : BitVec 24, exec .unflat s = .next { s with idx := v } ∧
        v.toNat = 3 * (s.xy.toNat * s.imgw.toNat + s.xx.toNat) + s.xch.toNat) ∧
    (s.imgw.toNat ≤ s.xx.toNat ∨ s.imgh.toNat ≤ s.xy.toNat ∨ s.xch.toNat = 3 →
      exec .unflat s = .next { s with fault := .paramError, subcause := 5, finfo := 0 })

/-- Rule R164: CARRD's whole effect, and its fault. -/
def Obligations.CarrdReadsOneByte : Prop :=
  decode 0x12 = .ok .carrd ∧
  ∀ s : State, Live s →
    let i := s.idx.toNat
    (i < 3 * s.imgw.toNat * s.imgh.toNat →
      exec .carrd s = .next { s with
        data := BitVec.ofNat 32 (pixByte (pixKey (i / 3 % s.imgw.toNat) (i / 3 / s.imgw.toNat) (i % 3)) s).toNat }) ∧
    (3 * s.imgw.toNat * s.imgh.toNat ≤ i →
      exec .carrd s = .next { s with fault := .paramError, subcause := 4, finfo := BitVec.ofNat 64 i })

/-- Rule R165: CARWR writes DATA[7:0] to the one cell flat(IDX) and changes nothing else, every other byte of PIX
included; and its fault. -/
def Obligations.CarwrWritesOneByte : Prop :=
  decode 0x13 = .ok .carwr ∧
  ∀ s : State, Live s →
    let i := s.idx.toNat
    (i < 3 * s.imgw.toNat * s.imgh.toNat →
      ∃ t, exec .carwr s = .next t ∧ t = { s with pix := t.pix } ∧
        pixByte (carKey s.imgw.toNat i) t = BitVec.ofNat 8 s.data.toNat ∧
        ∀ a, a ≠ carKey s.imgw.toNat i → pixByte a t = pixByte a s) ∧
    (3 * s.imgw.toNat * s.imgh.toNat ≤ i →
      exec .carwr s = .next { s with fault := .paramError, subcause := 4, finfo := BitVec.ofNat 64 i })

/-! ### BAT, the bit-plane address translator -/

/-- Rule R180: translate's three lines, and that it is strictly increasing, byte index first, then position. -/
def Obligations.TranslateIsStrictlyIncreasing : Prop :=
  (∀ k w, k ≤ 4 → translate k w = (k, 0)) ∧
  (∀ k w, 5 ≤ k → translate k w = (4 + (k - 4) / w, (k - 4) % w)) ∧
  ∀ k l w, 1 ≤ w → w ≤ 7 → k < l →
    (translate k w).1 < (translate l w).1 ∨
    ((translate k w).1 = (translate l w).1 ∧ (translate k w).2 < (translate l w).2)

/-- Rule R182: byte i carries the logical bits zonebase(i, w) + p at its positions p below ew(i, w), and every logical bit
is one of these. -/
def Obligations.ZonesInvertTranslate : Prop :=
  ∀ w, 1 ≤ w → w ≤ 7 →
    (∀ i, i ≤ 3 → ew i w = 1 ∧ zonebase i w = i) ∧
    (∀ i, 4 ≤ i → ew i w = w ∧ zonebase i w = 4 + (i - 4) * w) ∧
    (∀ i p, p < ew i w → translate (zonebase i w + p) w = (i, p)) ∧
    (∀ k, (translate k w).2 < ew (translate k w).1 w ∧ zonebase (translate k w).1 w + (translate k w).2 = k)

/-- Rule R183: the exact capacity, its two formulas agreeing with each other and with translate, and how far the planner's
ceil(L / w) falls short of it. -/
def Obligations.CarrierCapacityIsExact : Prop :=
  ∀ w, 1 ≤ w → w ≤ 7 →
    (∀ n, n ≤ 4 → capbits n w = n) ∧ (∀ n, 5 ≤ n → capbits n w = 4 + (n - 4) * w) ∧
    (∀ l, l ≤ 4 → bytesexact l w = l) ∧ (∀ l, 5 ≤ l → bytesexact l w = 4 + (l - 4 + w - 1) / w) ∧
    (∀ l n, bytesexact l w ≤ n ↔ l ≤ capbits n w) ∧
    (∀ l, 1 ≤ l → bytesexact l w = 1 + (translate (l - 1) w).1) ∧
    (∀ l, 5 ≤ l → (l + w - 1) / w ≤ bytesexact l w ∧
      let d := bytesexact l w - (l + w - 1) / w
      (w = 1 → d = 0) ∧ (w = 2 → d = 2) ∧ (w = 3 → d = 2 ∨ d = 3) ∧ (w = 4 → d = 3) ∧ (5 ≤ w → d = 3 ∨ d = 4))

/-- Rules R183, R185: CheckSpan's outcomes in their order, for either kind; with a width, a span passes exactly when its
end is within the carrier's capacity, and then every one of its bits lies in a byte of the carrier. -/
def Obligations.SpanTestGuardsEveryBit : Prop :=
  ∀ (k n : Nat) (s : State), 1 ≤ n →
    let last := (translate (k + n - 1) s.lsbw.toNat).1
    (s.lsbw ≠ 0 → (spanFits k n s ↔ k + n ≤ capbits (carLen s) s.lsbw.toNat)) ∧
    (spanFits k n s → ∀ j, j < n →
      (translate (k + j) s.lsbw.toNat).1 < carLen s ∧ (translate (k + j) s.lsbw.toNat).2 ≤ 6) ∧
    (spanFits k n s → ∀ kind, checkSpan k n kind s = .ok ()) ∧
    (5 ≤ k + n - 1 → s.lsbw = 0 → ∀ kind,
      checkSpan k n kind s = .error { s with fault := .paramError, subcause := 1, finfo := BitVec.ofNat 64 k }) ∧
    (k + n - 1 ≤ 4 ∨ s.lsbw ≠ 0 → carLen s ≤ last →
      checkSpan k n .write s =
        .error { s with fault := .carrierOverrun, subcause := 0, finfo := BitVec.ofNat 64 (last + 1 - carLen s) } ∧
      checkSpan k n .read s =
        .error { s with
          fault := .truncated, subcause := BitVec.ofNat 4 s.phase.code, finfo := BitVec.ofNat 64 k })

/-- Rule R190: XLATE's whole effect, and its fault. -/
def Obligations.XlateReportsTheCursor : Prop :=
  decode 0x20 = .ok .xlate ∧
  ∀ s : State, Live s →
    let k := s.bitpos.toNat
    let w := s.lsbw.toNat
    let i := if k ≤ 4 then k else 4 + (k - 4) / w
    let p := if k ≤ 4 then 0 else (k - 4) % w
    let n := 3 * s.imgw.toNat * s.imgh.toNat
    (k ≤ 4 ∨ s.lsbw ≠ 0 →
      exec .xlate s = .next
        { s with
          xbyte := BitVec.ofNat 32 i
          xbit := BitVec.ofNat 3 p
          xpix := BitVec.ofNat 32 (i / 3)
          xch := BitVec.ofNat 2 (i % 3)
          xx := if i < n then BitVec.ofNat 11 (i / 3 % s.imgw.toNat) else 0
          xy := if i < n then BitVec.ofNat 11 (i / 3 / s.imgw.toNat) else 0
          xvalid := decide (i < n) } ∧ i < 2 ^ 32 ∧ p < 7) ∧
    (5 ≤ k → s.lsbw = 0 →
      exec .xlate s = .next { s with fault := .paramError, subcause := 1, finfo := BitVec.ofNat 64 k })

/-! ### LBM, the byte multiplexer, and the bit cursor -/

/-- Rule R184: replacing and extracting a zone and a bit, bit by bit; the carrier zone is never touched; writing the
positions of a zone one by one replaces the zone. -/
def Obligations.MultiplexerKeepsTheCarrierZone : Prop :=
  ∀ (orig d : Byte) (e : Nat), 1 ≤ e → e ≤ 7 →
    (∀ p, e ≤ p → (zoneins orig d e).getLsbD p = orig.getLsbD p) ∧
    (∀ p, p < e → (zoneins orig d e).getLsbD p = d.getLsbD p) ∧
    (zoneext orig e).toNat = orig.toNat % 2 ^ e ∧
    (zoneext (zoneins orig d e) e).toNat = d.toNat % 2 ^ e ∧
    (∀ p b, p ≤ 6 → bitext (bitins orig p b) p = b ∧
      ∀ q, q ≠ p → (bitins orig p b).getLsbD q = orig.getLsbD q) ∧
    (List.range e).foldl (fun o p => bitins o p (bitext d p)) orig = zoneins orig d e

/-- Rule R186: WriteBits changes exactly the bit cells it names, to the bits of the list, and nothing else of the state. -/
def Obligations.WriteBitsChangesExactlyItsCells : Prop :=
  ∀ (k : Nat) (l : Bits) (s : State), l = [] ∨ spanFits k l.length s →
    writeBits k l s = { s with pix := (writeBits k l s).pix } ∧ WroteBits k l s (writeBits k l s)

/-- Rule R188: after WriteBits(k, L), ReadBits(k, n) = L. -/
def Obligations.ReadBitsGivesWhatWriteBitsWrote : Prop :=
  ∀ (k : Nat) (l : Bits) (s : State), l = [] ∨ spanFits k l.length s →
    readBits k l.length (writeBits k l s) = l

/-- Rule R191: ZONERD's whole effect, and its two faults in their order. -/
def Obligations.ZonerdExtractsTheZone : Prop :=
  decode 0x21 = .ok .zonerd ∧
  ∀ s : State, Live s →
    let i := s.idx.toNat
    let n := 3 * s.imgw.toNat * s.imgh.toNat
    let e := if i ≤ 3 then 1 else s.lsbw.toNat
    (i ≤ 3 ∨ s.lsbw ≠ 0 → i < n →
      exec .zonerd s = .next
        { s with data := BitVec.ofNat 32 ((pixByte (carKey s.imgw.toNat i) s).toNat % 2 ^ e) }) ∧
    (4 ≤ i → s.lsbw = 0 →
      exec .zonerd s = .next { s with fault := .paramError, subcause := 1, finfo := BitVec.ofNat 64 i }) ∧
    (i ≤ 3 ∨ s.lsbw ≠ 0 → n ≤ i →
      exec .zonerd s = .next { s with fault := .paramError, subcause := 4, finfo := BitVec.ofNat 64 i })

/-- Rule R192: ZONEWR replaces the payload zone of the one byte CAR[IDX] and changes nothing else; it equals WriteField of
the zone; its two faults in their order. -/
def Obligations.ZonewrReplacesTheZone : Prop :=
  decode 0x22 = .ok .zonewr ∧
  ∀ s : State, Live s →
    let i := s.idx.toNat
    let n := 3 * s.imgw.toNat * s.imgh.toNat
    let e := if i ≤ 3 then 1 else s.lsbw.toNat
    (i ≤ 3 ∨ s.lsbw ≠ 0 → i < n →
      ∃ t, exec .zonewr s = .next t ∧ t = { s with pix := t.pix } ∧
        (∀ p, (pixByte (carKey s.imgw.toNat i) t).getLsbD p =
          if p < e then s.data.getLsbD p else (pixByte (carKey s.imgw.toNat i) s).getLsbD p) ∧
        (∀ a, a ≠ carKey s.imgw.toNat i → pixByte a t = pixByte a s) ∧
        (∀ a, pixByte a t = pixByte a (writeField (zonebase i s.lsbw.toNat) s.data.toNat e s))) ∧
    (4 ≤ i → s.lsbw = 0 →
      exec .zonewr s = .next { s with fault := .paramError, subcause := 1, finfo := BitVec.ofNat 64 i }) ∧
    (i ≤ 3 ∨ s.lsbw ≠ 0 → n ≤ i →
      exec .zonewr s = .next { s with fault := .paramError, subcause := 4, finfo := BitVec.ofNat 64 i })

/-- Rules R195, R197: BITRD and FLDRD n put the n logical bits at the cursor in DATA, bit k + j as bit j, zeros above,
advance BITPOS by n and change nothing else; their faults in their order. -/
def Obligations.CursorReadsAdvance : Prop :=
  decode 0x23 = .ok .bitrd ∧
  (∀ n, 1 ≤ n → n ≤ 32 → decode (BitVec.ofNat 64 (0x25 + 256 * n)) = .ok (.fldrd (BitVec.ofNat 6 n))) ∧
  ∀ (s : State) (i : Instr) (n : Nat), Live s →
    (i = .bitrd ∧ n = 1) ∨ (∃ c : BitVec 6, i = .fldrd c ∧ c.toNat = n ∧ 1 ≤ n ∧ n ≤ 32) →
    let k := s.bitpos.toNat
    (spanFits k n s →
      ∃ v : BitVec 32, exec i s = .next { s with data := v, bitpos := BitVec.ofNat 32 (k + n) } ∧ k + n < 2 ^ 32 ∧
        (∀ j, j < n → v.getLsbD j = (pixByte (bitCell s (k + j)).1 s).getLsbD (bitCell s (k + j)).2) ∧
        (∀ j, n ≤ j → v.getLsbD j = false)) ∧
    (5 ≤ k + n - 1 → s.lsbw = 0 →
      exec i s = .next { s with fault := .paramError, subcause := 1, finfo := BitVec.ofNat 64 k }) ∧
    (k + n - 1 ≤ 4 ∨ s.lsbw ≠ 0 → carLen s ≤ (translate (k + n - 1) s.lsbw.toNat).1 →
      exec i s = .next { s with fault := .truncated, subcause := BitVec.ofNat 4 s.phase.code, finfo := BitVec.ofNat 64 k })

/-- Rules R196, R198: BITWR and FLDWR n write the n low bits of DATA at the cursor, bit j to logical bit k + j, and no
other bit of any cell, advance BITPOS by n and change nothing else; their faults in their order. -/
def Obligations.CursorWritesAdvance : Prop :=
  decode 0x24 = .ok .bitwr ∧
  (∀ n, 1 ≤ n → n ≤ 32 → decode (BitVec.ofNat 64 (0x26 + 256 * n)) = .ok (.fldwr (BitVec.ofNat 6 n))) ∧
  ∀ (s : State) (i : Instr) (n : Nat), Live s →
    (i = .bitwr ∧ n = 1) ∨ (∃ c : BitVec 6, i = .fldwr c ∧ c.toNat = n ∧ 1 ≤ n ∧ n ≤ 32) →
    let k := s.bitpos.toNat
    let last := (translate (k + n - 1) s.lsbw.toNat).1
    (spanFits k n s →
      ∃ t, exec i s = .next t ∧ t = { s with pix := t.pix, bitpos := BitVec.ofNat 32 (k + n) } ∧ k + n < 2 ^ 32 ∧
        WroteBits k ((List.range n).map fun j => s.data.getLsbD j) s t) ∧
    (5 ≤ k + n - 1 → s.lsbw = 0 →
      exec i s = .next { s with fault := .paramError, subcause := 1, finfo := BitVec.ofNat 64 k }) ∧
    (k + n - 1 ≤ 4 ∨ s.lsbw ≠ 0 → carLen s ≤ last →
      exec i s = .next { s with fault := .carrierOverrun, subcause := 0, finfo := BitVec.ofNat 64 (last + 1 - carLen s) })

/-- Rules R103, R104: FLDRD and FLDWR with a count of 0 or above 32 are no commands; the model's exec answers them as
dispatch answers their word (log entry 9). -/
def Obligations.BadCountIsIllegal : Prop :=
  ∀ (s : State) (n : BitVec 6), Live s → n.toNat = 0 ∨ 33 ≤ n.toNat →
    exec (.fldrd n) s = .next { s with fault := .illegalCommand, subcause := 0, finfo := encode (.fldrd n) } ∧
    exec (.fldwr n) s = .next { s with fault := .illegalCommand, subcause := 0, finfo := encode (.fldwr n) }

/-! ### The frame format and the header codec -/

/-- Rule R121: a field's bits, least significant first, and back. -/
def Obligations.FieldBitsRoundTrip : Prop :=
  (∀ v b, (fieldbits v b).length = b ∧ fieldval (fieldbits v b) = v % 2 ^ b ∧
    ∀ j (h : j < (fieldbits v b).length), (fieldbits v b)[j] = decide (v / 2 ^ j % 2 = 1)) ∧
  (∀ l : Bits, fieldbits (fieldval l) l.length = l)

/-- Rules R122, R123 and the layout table of R120: the length of a serialised header and each field's place and value. -/
def Obligations.HeaderLayout : Prop :=
  ∀ (w wid hei f : Nat) (e : List Byte), w < 8 → wid < 2048 → hei < 2048 → f < 2 ^ 32 →
    let l := serialize w wid hei e f
    let n := e.length
    let at' := fun first bits => fieldval ((l.drop first).take bits)
    l.length = 99 + 8 * n ∧
    at' 0 2 = 3 ∧ at' 2 3 = w ∧ at' 5 8 = 0x78 ∧ at' 13 11 = wid ∧ at' 24 8 = 0x78 ∧ at' 32 11 = hei ∧
    at' 43 8 = 0x78 ∧ (∀ j (h : j < n), at' (51 + 8 * j) 8 = e[j].toNat) ∧ at' (51 + 8 * n) 8 = 0x0A ∧
    at' (59 + 8 * n) 32 = f ∧ at' (91 + 8 * n) 8 = 0x78

/-- Rule R220: HDRBUILD's whole effect, and its two faults in their order. -/
def Obligations.HdrbuildBuildsTheHeader : Prop :=
  decode 0x30 = .ok .hdrbuild ∧
  ∀ s : State, Live s →
    (s.lsbw ≠ 0 → s.extlen.toNat ≤ 243 →
      ∃ (f : BitVec 32) (h : BitVec 11),
        exec .hdrbuild s = .next { s with hcode := 3, hwidth := s.imgw, hheight := s.imgh, filesz := f, hdrsz := h } ∧
        f.toNat = 8 * s.paylen.toNat ∧ h.toNat = 99 + 8 * s.extlen.toNat) ∧
    (s.lsbw = 0 → exec .hdrbuild s = .next { s with fault := .paramError, subcause := 1, finfo := 0 }) ∧
    (s.lsbw ≠ 0 → 243 < s.extlen.toNat →
      exec .hdrbuild s = .next { s with fault := .paramError, subcause := 2, finfo := BitVec.ofNat 64 s.extlen.toNat })

/-- Rule R230: HDRPUT builds the header, writes its bits from logical bit 0 on and no other bit, and leaves the cursor
behind it; its faults in their order, the carrier unchanged on each and the header rebuilt before CarrierOverrun. -/
def Obligations.HdrputWritesTheHeader : Prop :=
  decode 0x31 = .ok .hdrput ∧
  ∀ s : State, Live s →
    (s.lsbw ≠ 0 → s.extlen.toNat ≤ 243 →
      (bytesexact (headerLen s) s.lsbw.toNat ≤ carLen s →
        ∃ t, exec .hdrput s = .next t ∧
          t = { builtHeader s with pix := t.pix, bitpos := BitVec.ofNat 32 (headerLen s) } ∧
          WroteBits 0 (inputHeader s) s t) ∧
      (carLen s < bytesexact (headerLen s) s.lsbw.toNat →
        exec .hdrput s = .next { builtHeader s with
          fault := .carrierOverrun, subcause := 0
          finfo := BitVec.ofNat 64 (bytesexact (headerLen s) s.lsbw.toNat - carLen s) })) ∧
    (s.lsbw = 0 → exec .hdrput s = .next { s with fault := .paramError, subcause := 1, finfo := 0 }) ∧
    (s.lsbw ≠ 0 → 243 < s.extlen.toNat →
      exec .hdrput s = .next { s with fault := .paramError, subcause := 2, finfo := BitVec.ofNat 64 s.extlen.toNat })

/-! ### FHV, the frame header validator -/

/-- Rule R240, a valid header: HDRGET reads every field, puts the extension in EXT and leaves the cursor behind the header
in PHASE 5; nothing else changes. -/
def Obligations.HdrgetReadsAValidHeader : Prop :=
  decode 0x32 = .ok .hdrget ∧
  ∀ (s : State) (n : Nat), Live s → HeaderOk n s →
    ∃ t, exec .hdrget s = .next t ∧ TookExtension n s t ∧
      t = { s with
            phase := .hdrDone, hcode := 3, lsbw := BitVec.ofNat 3 (readField 2 3 s), hwidth := s.imgw, hheight := s.imgh
            extlen := BitVec.ofNat 8 n, ext := t.ext, filesz := BitVec.ofNat 32 (frameField (59 + 8 * n) 32 s)
            hdrsz := BitVec.ofNat 11 (99 + 8 * n), bitpos := BitVec.ofNat 32 (99 + 8 * n) }

/-- Rules R240, R241, ReadBootstrap: a carrier too short for bits 0 to 4, checks 1 and 2, with everything each fault
leaves. -/
def Obligations.HdrgetChecksTheBootstrap : Prop :=
  ∀ s : State, Live s →
    (carLen s < 2 → exec .hdrget s = .next (raise .truncated 1 0 { s with phase := .bootstrap })) ∧
    (2 ≤ carLen s → carLen s < 5 → exec .hdrget s = .next (raise .truncated 1 2 { s with phase := .bootstrap })) ∧
    (5 ≤ carLen s → readField 0 2 s ≠ 3 →
      exec .hdrget s = .next (raise .corruptedHeader 1 (readField 0 2 s) (gotBootstrap s))) ∧
    (5 ≤ carLen s → readField 0 2 s = 3 → readField 2 3 s = 0 →
      exec .hdrget s = .next (raise .corruptedHeader 2 0 (gotBootstrap s)))

/-- Rules R240, R241, ReadWidthHeight: the first field that is missing or wrong among separators 1 to 3, width and height,
with everything the fault leaves; width and height are compared with IMGW and IMGH behind separator 3. -/
def Obligations.HdrgetChecksWidthAndHeight : Prop :=
  ∀ s : State, Live s → BootstrapOk s → ¬ DimensionsOk s →
    let fits := fun k b => spanFits k b (atFrameWidth s)
    let fld := fun k b => frameField k b s
    let g : State := { gotBootstrap s with phase := .widthHeight }
    let g1 : State := { g with bitpos := 13 }
    let g2 : State := { g with hwidth := BitVec.ofNat 11 (fld 13 11), bitpos := 24 }
    let g3 : State := { g2 with bitpos := 32 }
    let g4 : State := { g2 with hheight := BitVec.ofNat 11 (fld 32 11), bitpos := 43 }
    let g5 : State := { g4 with bitpos := 51 }
    if ¬ fits 5 8 then exec .hdrget s = .next (raise .truncated 2 5 g)
    else if fld 5 8 ≠ 0x78 then exec .hdrget s = .next (raise .corruptedHeader 3 (fld 5 8) g1)
    else if ¬ fits 13 11 then exec .hdrget s = .next (raise .truncated 2 13 g1)
    else if ¬ fits 24 8 then exec .hdrget s = .next (raise .truncated 2 24 g2)
    else if fld 24 8 ≠ 0x78 then exec .hdrget s = .next (raise .corruptedHeader 4 (fld 24 8) g3)
    else if ¬ fits 32 11 then exec .hdrget s = .next (raise .truncated 2 32 g3)
    else if ¬ fits 43 8 then exec .hdrget s = .next (raise .truncated 2 43 g4)
    else if fld 43 8 ≠ 0x78 then exec .hdrget s = .next (raise .corruptedHeader 5 (fld 43 8) g5)
    else if fld 13 11 ≠ s.imgw.toNat then exec .hdrget s = .next (raise .corruptedHeader 6 (fld 13 11) g5)
    else exec .hdrget s = .next (raise .corruptedHeader 7 (fld 32 11) g5)

/-- Rules R240, R241, ReadExtension and ReadFileSize: behind n extension bytes, the first thing that is missing or wrong,
with everything the fault leaves: the next byte, the 244th byte, fileSizeBits, separator 4. -/
def Obligations.HdrgetChecksTheRest : Prop :=
  ∀ (s : State) (n : Nat), Live s → ExtensionRuns n s →
    let fits := fun k b => spanFits k b (atFrameWidth s)
    let fld := fun k b => frameField k b s
    let k := 51 + 8 * n
    ∃ e : Vector Byte 243, TookExtension n s { s with ext := e } ∧
      let x : State := { gotBootstrap s with
        phase := .extension, hwidth := s.imgw, hheight := s.imgh, extlen := BitVec.ofNat 8 n, ext := e
        bitpos := BitVec.ofNat 32 k }
      let y : State := { x with phase := .fileSize, bitpos := BitVec.ofNat 32 (k + 8) }
      let z : State := { y with filesz := BitVec.ofNat 32 (fld (k + 8) 32), bitpos := BitVec.ofNat 32 (k + 40) }
      (¬ fits k 8 → exec .hdrget s = .next (raise .truncated 3 k x)) ∧
      (n = 243 → fits k 8 → fld k 8 ≠ 0x0A →
        exec .hdrget s = .next (raise .extTooLong 0 (k + 8) { x with bitpos := BitVec.ofNat 32 (k + 8) })) ∧
      (fits k 8 → fld k 8 = 0x0A →
        (¬ fits (k + 8) 32 → exec .hdrget s = .next (raise .truncated 4 (k + 8) y)) ∧
        (fits (k + 8) 32 → ¬ fits (k + 40) 8 → exec .hdrget s = .next (raise .truncated 4 (k + 40) z)) ∧
        (fits (k + 40) 8 → fld (k + 40) 8 ≠ 0x78 →
          exec .hdrget s = .next
            (raise .corruptedHeader 8 (fld (k + 40) 8) { z with bitpos := BitVec.ofNat 32 (k + 48) })))

/-- Rule R240: whatever the carrier holds, HDRGET writes only the header registers, LSBW, EXTLEN, EXT, BITPOS, PHASE and
the fault registers. -/
def Obligations.HdrgetWritesOnlyItsRegisters : Prop :=
  ∀ s t : State, exec .hdrget s = .next t →
    t = { s with
          fault := t.fault, subcause := t.subcause, finfo := t.finfo, phase := t.phase, hcode := t.hcode, lsbw := t.lsbw
          hwidth := t.hwidth, hheight := t.hheight, extlen := t.extlen, ext := t.ext, filesz := t.filesz
          hdrsz := t.hdrsz, bitpos := t.bitpos }

/-! ### The capacity planner -/

/-- Rule R260: the planner's figures over all carriers, widths and bit counts; FITS is the sign of both magnitudes. -/
def Obligations.PlannerFigures : Prop :=
  ∀ c t w, 1 ≤ w → w ≤ 7 →
    planNeed t w = (t + w - 1) / w ∧ (planFits c t w = true ↔ (t + w - 1) / w ≤ c) ∧
    (planFits c t w = true ↔ t ≤ c * w) ∧
    (planFits c t w = true →
      planDefBytes c t w = c - (t + w - 1) / w ∧ planDefBits c t w = c * w - t) ∧
    (planFits c t w = false →
      planDefBytes c t w = (t + w - 1) / w - c ∧ planDefBits c t w = t - c * w ∧
      1 ≤ planDefBytes c t w ∧ 1 ≤ planDefBits c t w) ∧
    planDefPix c t w = planDefBytes c t w / 3

/-- Rule R261: CAPCHK's whole effect, no figure wrapping in its register, a second CAPCHK writing the same values; and its
two faults in their order. -/
def Obligations.CapchkReportsThePlan : Prop :=
  decode 0x38 = .ok .capchk ∧
  ∀ s : State, Live s →
    (s.lsbw ≠ 0 → s.extlen.toNat ≤ 243 →
      exec .capchk s = .next (planned s) ∧ exec .capchk (planned s) = .next (planned s) ∧
      (planned s).capneed.toNat = planNeed (frameLen s) s.lsbw.toNat ∧
      (planned s).fits = planFits (carLen s) (frameLen s) s.lsbw.toNat ∧
      (planned s).defbytes.toNat = planDefBytes (carLen s) (frameLen s) s.lsbw.toNat ∧
      (planned s).defbits.toNat = planDefBits (carLen s) (frameLen s) s.lsbw.toNat ∧
      (planned s).defpix.toNat = planDefPix (carLen s) (frameLen s) s.lsbw.toNat) ∧
    (s.lsbw = 0 → exec .capchk s = .next { s with fault := .paramError, subcause := 1, finfo := 0 }) ∧
    (s.lsbw ≠ 0 → 243 < s.extlen.toNat →
      exec .capchk s = .next { s with fault := .paramError, subcause := 2, finfo := BitVec.ofNat 64 s.extlen.toNat })

/-- Rule R262: for a frame of at least 5 bits the planner's need falls 2 to 4 bytes short of the exact one when w is 2 or
more and equals it when w is 1; and at one byte below need the deficit is one byte and 1 to w bits. -/
def Obligations.PlannerFallsShortOfTheExactBound : Prop :=
  ∀ t w, 1 ≤ w → w ≤ 7 → 5 ≤ t →
    (w = 1 → bytesexact t w = planNeed t w) ∧
    (2 ≤ w → planNeed t w + 2 ≤ bytesexact t w ∧ bytesexact t w ≤ planNeed t w + 4) ∧
    planFits (planNeed t w - 1) t w = false ∧ planDefBytes (planNeed t w - 1) t w = 1 ∧
    1 ≤ planDefBits (planNeed t w - 1) t w ∧ planDefBits (planNeed t w - 1) t w ≤ w

/-! ### Payload and whole-frame commands -/

/-- Rule R270: PAYPUT writes the payload's bits at the cursor, bit m being bit m mod 8 of PAY[m div 8], and no other bit,
and advances the cursor; an empty payload changes nothing; its faults in their order, nothing else changed. -/
def Obligations.PayputWritesThePayload : Prop :=
  decode 0x40 = .ok .payput ∧
  ∀ s : State, Live s →
    let k := s.bitpos.toNat
    let l := 8 * s.paylen.toNat
    let last := (translate (k + l - 1) s.lsbw.toNat).1
    (s.paylen.toNat ≤ s.payCap.toNat →
      (l = 0 → exec .payput s = .next s) ∧
      (0 < l → spanFits k l s →
        ∃ t, exec .payput s = .next t ∧ t = { s with pix := t.pix, bitpos := BitVec.ofNat 32 (k + l) } ∧
          k + l < 2 ^ 32 ∧
          WroteBits k ((List.range l).map fun m => (payRead (m / 8) s).getLsbD (m % 8)) s t) ∧
      (0 < l → 5 ≤ k + l - 1 → s.lsbw = 0 →
        exec .payput s = .next { s with fault := .paramError, subcause := 1, finfo := BitVec.ofNat 64 k }) ∧
      (0 < l → k + l - 1 ≤ 4 ∨ s.lsbw ≠ 0 → carLen s ≤ last →
        exec .payput s = .next
          { s with fault := .carrierOverrun, subcause := 0, finfo := BitVec.ofNat 64 (last + 1 - carLen s) })) ∧
    (s.payCap.toNat < s.paylen.toNat →
      exec .payput s = .next { s with fault := .paramError, subcause := 3, finfo := BitVec.ofNat 64 s.paylen.toNat })

/-- Rule R275: PAYGET reads FILESZ bits at the cursor into PAY[0..FILESZ div 8 − 1], leaves the cells above alone, sets
PAYLEN, BITPOS and PHASE 7 and nothing else; its faults in their order, each leaving PHASE 6 and nothing else changed. -/
def Obligations.PaygetReadsThePayload : Prop :=
  decode 0x41 = .ok .payget ∧
  ∀ s : State, Live s →
    let k := s.bitpos.toNat
    let f := s.filesz.toNat
    let p : State := { s with phase := .payload }
    (f % 8 ≠ 0 → exec .payget s = .next { p with fault := .lengthError, subcause := 1, finfo := BitVec.ofNat 64 f }) ∧
    (f % 8 = 0 → s.payCap.toNat < f / 8 →
      exec .payget s = .next { p with fault := .lengthError, subcause := 2, finfo := BitVec.ofNat 64 f }) ∧
    (f % 8 = 0 → f / 8 ≤ s.payCap.toNat →
      (f = 0 ∨ spanFits k f s →
        ∃ t, exec .payget s = .next t ∧
          t = { s with
                pay := t.pay, paylen := BitVec.ofNat 29 (f / 8), bitpos := BitVec.ofNat 32 (k + f), phase := .done } ∧
          (∀ j, j < f / 8 → payRead j t = BitVec.ofNat 8 (readField (k + 8 * j) 8 s)) ∧
          (∀ j, f / 8 ≤ j → payRead j t = payRead j s)) ∧
      (0 < f → 5 ≤ k + f - 1 → s.lsbw = 0 →
        exec .payget s = .next { p with fault := .paramError, subcause := 1, finfo := BitVec.ofNat 64 k }) ∧
      (0 < f → k + f - 1 ≤ 4 ∨ s.lsbw ≠ 0 → carLen s ≤ (translate (k + f - 1) s.lsbw.toNat).1 →
        exec .payget s = .next { p with fault := .truncated, subcause := 6, finfo := BitVec.ofNat 64 k }))

/-- Rule R280, and the last sentence but one of R262: on a carrier of at least bytesexact(T, w) bytes EMBED builds the
header, runs the planner, writes header and payload as one bit string from logical bit 0 on and no other bit, and leaves
the cursor behind the frame. -/
def Obligations.EmbedWritesTheFrame : Prop :=
  decode 0x42 = .ok .embed ∧
  ∀ s : State, Live s → s.lsbw ≠ 0 → s.extlen.toNat ≤ 243 → s.paylen.toNat ≤ s.payCap.toNat →
    bytesexact (frameLen s) s.lsbw.toNat ≤ carLen s →
    ∃ t, exec .embed s = .next t ∧ Live t ∧ t.fits = true ∧
      t = { planned s with pix := t.pix, bitpos := BitVec.ofNat 32 (frameLen s) } ∧ frameLen s < 2 ^ 27 ∧
      WroteBits 0 (inputHeader s ++ inputPayload s) s t

/-- Rule R280: EMBED's faults in their order, the carrier and the cursor unchanged on each. -/
def Obligations.EmbedFaultsBeforeItWrites : Prop :=
  ∀ s : State, Live s →
    (s.lsbw = 0 → exec .embed s = .next { s with fault := .paramError, subcause := 1, finfo := 0 }) ∧
    (s.lsbw ≠ 0 → 243 < s.extlen.toNat →
      exec .embed s = .next { s with fault := .paramError, subcause := 2, finfo := BitVec.ofNat 64 s.extlen.toNat }) ∧
    (s.lsbw ≠ 0 → s.extlen.toNat ≤ 243 →
      (s.payCap.toNat < s.paylen.toNat →
        exec .embed s = .next { builtHeader s with
          fault := .paramError, subcause := 3, finfo := BitVec.ofNat 64 s.paylen.toNat }) ∧
      (s.paylen.toNat ≤ s.payCap.toNat → carLen s * s.lsbw.toNat < frameLen s →
        exec .embed s = .next { planned s with
          fault := .insufficientCapacity, subcause := 0
          finfo := BitVec.ofNat 64 (planNeed (frameLen s) s.lsbw.toNat - carLen s) }) ∧
      (s.paylen.toNat ≤ s.payCap.toNat → frameLen s ≤ carLen s * s.lsbw.toNat →
        carLen s < bytesexact (frameLen s) s.lsbw.toNat →
        exec .embed s = .next { planned s with
          fault := .carrierOverrun, subcause := 0
          finfo := BitVec.ofNat 64 (bytesexact (frameLen s) s.lsbw.toNat - carLen s) }))

/-- Rule R280: when EMBED succeeds, HDRPUT followed by PAYPUT succeeds and leaves the same carrier, cursor and header;
they differ in the planner's registers alone. -/
def Obligations.EmbedEqualsHdrputThenPayput : Prop :=
  ∀ s t : State, Live s → exec .embed s = .next t → Live t →
    ∃ u v, exec .hdrput s = .next u ∧ Live u ∧ exec .payput u = .next v ∧ Live v ∧
      v = { t with
            capneed := s.capneed, fits := s.fits, defbytes := s.defbytes, defbits := s.defbits, defpix := s.defpix }

/-- Rule R285: EXTRACT is HDRGET and then PAYGET, a fault of HDRGET ending it; and on a carrier that holds a whole valid
frame it recovers the header and the payload, changing nothing else. -/
def Obligations.ExtractRecoversTheFrame : Prop :=
  decode 0x43 = .ok .extract ∧
  (∀ s t : State, exec .hdrget s = .next t → exec .extract s = if Live t then exec .payget t else .next t) ∧
  ∀ (s : State) (n : Nat), Live s → HeaderOk n s →
    let f := frameField (59 + 8 * n) 32 s
    f % 8 = 0 → f / 8 ≤ s.payCap.toNat → f = 0 ∨ spanFits (99 + 8 * n) f (atFrameWidth s) →
    ∃ t, exec .extract s = .next t ∧ TookExtension n s t ∧
      (∀ j, j < f / 8 → payRead j t = BitVec.ofNat 8 (frameField (99 + 8 * n + 8 * j) 8 s)) ∧
      (∀ j, f / 8 ≤ j → payRead j t = payRead j s) ∧
      t = { s with
            phase := .done, hcode := 3, lsbw := BitVec.ofNat 3 (readField 2 3 s), hwidth := s.imgw, hheight := s.imgh
            extlen := BitVec.ofNat 8 n, ext := t.ext, filesz := BitVec.ofNat 32 f, hdrsz := BitVec.ofNat 11 (99 + 8 * n)
            paylen := BitVec.ofNat 29 (f / 8), pay := t.pay, bitpos := BitVec.ofNat 32 (99 + 8 * n + f) }

/-- Rule R290, the round trip: after an EMBED that succeeds, with no terminator in the extension, EXTRACT on any live block
that has that carrier, those dimensions and that PAY_CAP (the same block, or a fresh one) succeeds and gives back the
width, the extension and the payload. -/
def Obligations.ExtractInvertsEmbed : Prop :=
  ∀ s t v : State, Live s → exec .embed s = .next t → Live t → NoTerminator s →
    Live v → v.pix = t.pix → v.imgw = s.imgw → v.imgh = s.imgh → v.payCap = s.payCap →
    ∃ u, exec .extract v = .next u ∧ Live u ∧ u.phase = .done ∧ u.hcode = 3 ∧ u.lsbw = s.lsbw ∧
      u.hwidth = s.imgw ∧ u.hheight = s.imgh ∧ u.filesz.toNat = 8 * s.paylen.toNat ∧
      u.extlen = s.extlen ∧ (∀ j, j < s.extlen.toNat → extRead j u = extRead j s) ∧
      u.paylen = s.paylen ∧ (∀ j, j < s.paylen.toNat → payRead j u = payRead j s) ∧
      u.bitpos.toNat = frameLen s ∧ u.pix = t.pix

/-- Rule R243, corruption detection: after an EMBED that succeeds, with no terminator in the extension, flipping any one
bit of any of the four separators makes EXTRACT fail with CorruptedHeaderError under that separator's sub-cause, PAY
untouched. -/
def Obligations.FlippedSeparatorBitIsDetected : Prop :=
  ∀ (s t : State) (k sub : Nat), Live s → exec .embed s = .next t → Live t → NoTerminator s →
    (5 ≤ k ∧ k < 13 ∧ sub = 3) ∨ (24 ≤ k ∧ k < 32 ∧ sub = 4) ∨ (43 ≤ k ∧ k < 51 ∧ sub = 5) ∨
      (91 + 8 * s.extlen.toNat ≤ k ∧ k < 99 + 8 * s.extlen.toNat ∧ sub = 8) →
    ∃ u, exec .extract (writeBit k (! readBit k t) t) = .next u ∧
      u.fault = .corruptedHeader ∧ u.subcause.toNat = sub ∧ u.pay = t.pay

/-- Rules R126, R350, the unguarded hazard: with the first terminator byte of the extension at EXT[j], a HDRGET on what
EMBED wrote ends the extension after j bytes, and then either accepts the header or fails separator 4. -/
def Obligations.TerminatorInExtensionEndsItEarly : Prop :=
  ∀ (s t v : State) (j : Nat), Live s → exec .embed s = .next t → Live t →
    j < s.extlen.toNat → extRead j s = 0x0A → (∀ i, i < j → extRead i s ≠ 0x0A) →
    Live v → v.pix = t.pix → v.imgw = s.imgw → v.imgh = s.imgh →
    ∃ u, exec .hdrget v = .next u ∧ u.extlen.toNat = j ∧ (∀ i, i < j → extRead i u = extRead i s) ∧
      ((Live u ∧ u.phase = .hdrDone) ∨ (u.fault = .corruptedHeader ∧ u.subcause = 8))

/-! ### Rules over all commands -/

/-- Rule R310: a command that faults leaves both memories as they were; apart from HDRGET, EXTRACT and the commands that
rebuild the header or set PHASE first, it changes nothing but the fault registers; only HDRGET and EXTRACT move the
cursor. -/
def Obligations.FaultingCommandLeavesTheMemories : Prop :=
  ∀ (i : Instr) (s t : State), Live s → exec i s = .next t → ¬ Live t →
    t.pix = s.pix ∧ t.pay = s.pay ∧ (i ≠ .hdrget → i ≠ .extract → t.bitpos = s.bitpos) ∧
    (i ∉ [.hdrget, .extract, .hdrput, .embed, .payget] →
      t = { s with fault := t.fault, subcause := t.subcause, finfo := t.finfo })

/-- Rule R80: no command but CARWR changes a bit of a carrier byte at or above its payload zone (above position 0 where no
width is set), and no command changes a PIX cell outside the current carrier. -/
def Obligations.CarrierZoneIsNeverTouched : Prop :=
  ∀ (i : Instr) (s t : State), exec i s = .next t →
    (i ≠ .carwr → ∀ b p, b < carLen s → 1 ≤ p → ew b s.lsbw.toNat ≤ p →
      (pixByte (carKey s.imgw.toNat b) t).getLsbD p = (pixByte (carKey s.imgw.toNat b) s).getLsbD p) ∧
    (∀ a, (∀ b, b < carLen s → a ≠ carKey s.imgw.toNat b) → pixByte a t = pixByte a s)

/-- Rules R21, R30, R70: a command writes only the registers, flags and memories whose row names it; the model's own
fields (log entries 1, 2, 6) are written by none. -/
def Obligations.CommandsWriteOnlyWhatTheirRowsName : Prop :=
  ∀ (i : Instr) (s t : State), exec i s = .next t →
    (i ≠ .reset → t.imgw = s.imgw ∧ t.imgh = s.imgh) ∧
    (i ≠ .reset → i ≠ .unflat → t.idx = s.idx) ∧
    (i ≠ .reset → i ≠ .xlate → t.xbyte = s.xbyte ∧ t.xbit = s.xbit) ∧
    (i ≠ .reset → Live t → t.finfo = s.finfo ∧ t.subcause = s.subcause) ∧
    (writesBitpos i = false → t.bitpos = s.bitpos) ∧
    (writesData i = false → t.data = s.data) ∧
    (writesPaylen i = false → t.paylen = s.paylen) ∧
    (writesFrameInputs i = false → t.lsbw = s.lsbw ∧ t.extlen = s.extlen ∧ t.ext = s.ext) ∧
    (writesHeader i = false → t.hcode = s.hcode ∧ t.hwidth = s.hwidth ∧ t.hheight = s.hheight ∧
      t.filesz = s.filesz ∧ t.hdrsz = s.hdrsz) ∧
    (writesLocation i = false → t.xpix = s.xpix ∧ t.xx = s.xx ∧ t.xy = s.xy ∧ t.xch = s.xch ∧ t.xvalid = s.xvalid) ∧
    (writesPlanner i = false → t.capneed = s.capneed ∧ t.fits = s.fits ∧ t.defbytes = s.defbytes ∧
      t.defbits = s.defbits ∧ t.defpix = s.defpix) ∧
    (writesPhase i = false → t.phase = s.phase) ∧
    (writesPix i = false → t.pix = s.pix) ∧
    (writesPay i = false → t.pay = s.pay) ∧
    t.payCap = s.payCap ∧ t.pending = s.pending ∧ t.returned = s.returned

/-- Rule R30: FITS and XVALID are reports: no command's outcome depends on what they hold before it. -/
def Obligations.ReportsDoNotInfluenceCommands : Prop :=
  ∀ (i : Instr) (s t : State) (f x : Bool), exec i s = .next t →
    ∃ t', exec i { s with fits := f, xvalid := x } = .next t' ∧ { t' with fits := t.fits, xvalid := t.xvalid } = t

/-! ### The invariant -/

/-- The invariant of Safety.lean holds right after reset. -/
def Obligations.InvariantHoldsAtReset : Prop := Inv State.reset

/-- Every step keeps the invariant: canonical memories of existing cells only (rules R70, R73, R75), a fault record that
agrees with PHASE (rules R32, R300 to R309), FINFO 0 without a fault (R300), XBIT in a zone (R190), HDRSZ a header size
(R122), DEFPIX a third of DEFBYTES (R260). -/
def Obligations.EveryStepKeepsTheInvariant : Prop :=
  ∀ s t : State, Inv s → step s = .next t → Inv t
end

