-- ==== Sys2Proof/Laws/State.lean ====
section
/-! SUPPORT. One lemma per field per named update of State, true by rfl, so that no proof unfolds a record update. -/

namespace Sys2Proof.Machine

/-! ### setPixByte -/

@[simp] theorem setPixByte_fault (a : Nat) (v : Byte) (s : State) : (setPixByte a v s).fault = s.fault := rfl
@[simp] theorem setPixByte_subcause (a : Nat) (v : Byte) (s : State) : (setPixByte a v s).subcause = s.subcause := rfl
@[simp] theorem setPixByte_phase (a : Nat) (v : Byte) (s : State) : (setPixByte a v s).phase = s.phase := rfl
@[simp] theorem setPixByte_fits (a : Nat) (v : Byte) (s : State) : (setPixByte a v s).fits = s.fits := rfl
@[simp] theorem setPixByte_xvalid (a : Nat) (v : Byte) (s : State) : (setPixByte a v s).xvalid = s.xvalid := rfl
@[simp] theorem setPixByte_finfo (a : Nat) (v : Byte) (s : State) : (setPixByte a v s).finfo = s.finfo := rfl
@[simp] theorem setPixByte_imgw (a : Nat) (v : Byte) (s : State) : (setPixByte a v s).imgw = s.imgw := rfl
@[simp] theorem setPixByte_imgh (a : Nat) (v : Byte) (s : State) : (setPixByte a v s).imgh = s.imgh := rfl
@[simp] theorem setPixByte_lsbw (a : Nat) (v : Byte) (s : State) : (setPixByte a v s).lsbw = s.lsbw := rfl
@[simp] theorem setPixByte_bitpos (a : Nat) (v : Byte) (s : State) : (setPixByte a v s).bitpos = s.bitpos := rfl
@[simp] theorem setPixByte_idx (a : Nat) (v : Byte) (s : State) : (setPixByte a v s).idx = s.idx := rfl
@[simp] theorem setPixByte_data (a : Nat) (v : Byte) (s : State) : (setPixByte a v s).data = s.data := rfl
@[simp] theorem setPixByte_paylen (a : Nat) (v : Byte) (s : State) : (setPixByte a v s).paylen = s.paylen := rfl
@[simp] theorem setPixByte_extlen (a : Nat) (v : Byte) (s : State) : (setPixByte a v s).extlen = s.extlen := rfl
@[simp] theorem setPixByte_hcode (a : Nat) (v : Byte) (s : State) : (setPixByte a v s).hcode = s.hcode := rfl
@[simp] theorem setPixByte_hwidth (a : Nat) (v : Byte) (s : State) : (setPixByte a v s).hwidth = s.hwidth := rfl
@[simp] theorem setPixByte_hheight (a : Nat) (v : Byte) (s : State) : (setPixByte a v s).hheight = s.hheight := rfl
@[simp] theorem setPixByte_filesz (a : Nat) (v : Byte) (s : State) : (setPixByte a v s).filesz = s.filesz := rfl
@[simp] theorem setPixByte_hdrsz (a : Nat) (v : Byte) (s : State) : (setPixByte a v s).hdrsz = s.hdrsz := rfl
@[simp] theorem setPixByte_xbyte (a : Nat) (v : Byte) (s : State) : (setPixByte a v s).xbyte = s.xbyte := rfl
@[simp] theorem setPixByte_xbit (a : Nat) (v : Byte) (s : State) : (setPixByte a v s).xbit = s.xbit := rfl
@[simp] theorem setPixByte_xpix (a : Nat) (v : Byte) (s : State) : (setPixByte a v s).xpix = s.xpix := rfl
@[simp] theorem setPixByte_xx (a : Nat) (v : Byte) (s : State) : (setPixByte a v s).xx = s.xx := rfl
@[simp] theorem setPixByte_xy (a : Nat) (v : Byte) (s : State) : (setPixByte a v s).xy = s.xy := rfl
@[simp] theorem setPixByte_xch (a : Nat) (v : Byte) (s : State) : (setPixByte a v s).xch = s.xch := rfl
@[simp] theorem setPixByte_capneed (a : Nat) (v : Byte) (s : State) : (setPixByte a v s).capneed = s.capneed := rfl
@[simp] theorem setPixByte_defbits (a : Nat) (v : Byte) (s : State) : (setPixByte a v s).defbits = s.defbits := rfl
@[simp] theorem setPixByte_defbytes (a : Nat) (v : Byte) (s : State) : (setPixByte a v s).defbytes = s.defbytes := rfl
@[simp] theorem setPixByte_defpix (a : Nat) (v : Byte) (s : State) : (setPixByte a v s).defpix = s.defpix := rfl
@[simp] theorem setPixByte_ext (a : Nat) (v : Byte) (s : State) : (setPixByte a v s).ext = s.ext := rfl
@[simp] theorem setPixByte_pix (a : Nat) (v : Byte) (s : State) : (setPixByte a v s).pix = Memory.write s.pix a v := rfl
@[simp] theorem setPixByte_pay (a : Nat) (v : Byte) (s : State) : (setPixByte a v s).pay = s.pay := rfl
@[simp] theorem setPixByte_payCap (a : Nat) (v : Byte) (s : State) : (setPixByte a v s).payCap = s.payCap := rfl
@[simp] theorem setPixByte_pending (a : Nat) (v : Byte) (s : State) : (setPixByte a v s).pending = s.pending := rfl
@[simp] theorem setPixByte_returned (a : Nat) (v : Byte) (s : State) : (setPixByte a v s).returned = s.returned := rfl

/-! ### carWrite -/

@[simp] theorem carWrite_fault (i : Nat) (v : Byte) (s : State) : (carWrite i v s).fault = s.fault := rfl
@[simp] theorem carWrite_subcause (i : Nat) (v : Byte) (s : State) : (carWrite i v s).subcause = s.subcause := rfl
@[simp] theorem carWrite_phase (i : Nat) (v : Byte) (s : State) : (carWrite i v s).phase = s.phase := rfl
@[simp] theorem carWrite_fits (i : Nat) (v : Byte) (s : State) : (carWrite i v s).fits = s.fits := rfl
@[simp] theorem carWrite_xvalid (i : Nat) (v : Byte) (s : State) : (carWrite i v s).xvalid = s.xvalid := rfl
@[simp] theorem carWrite_finfo (i : Nat) (v : Byte) (s : State) : (carWrite i v s).finfo = s.finfo := rfl
@[simp] theorem carWrite_imgw (i : Nat) (v : Byte) (s : State) : (carWrite i v s).imgw = s.imgw := rfl
@[simp] theorem carWrite_imgh (i : Nat) (v : Byte) (s : State) : (carWrite i v s).imgh = s.imgh := rfl
@[simp] theorem carWrite_lsbw (i : Nat) (v : Byte) (s : State) : (carWrite i v s).lsbw = s.lsbw := rfl
@[simp] theorem carWrite_bitpos (i : Nat) (v : Byte) (s : State) : (carWrite i v s).bitpos = s.bitpos := rfl
@[simp] theorem carWrite_idx (i : Nat) (v : Byte) (s : State) : (carWrite i v s).idx = s.idx := rfl
@[simp] theorem carWrite_data (i : Nat) (v : Byte) (s : State) : (carWrite i v s).data = s.data := rfl
@[simp] theorem carWrite_paylen (i : Nat) (v : Byte) (s : State) : (carWrite i v s).paylen = s.paylen := rfl
@[simp] theorem carWrite_extlen (i : Nat) (v : Byte) (s : State) : (carWrite i v s).extlen = s.extlen := rfl
@[simp] theorem carWrite_hcode (i : Nat) (v : Byte) (s : State) : (carWrite i v s).hcode = s.hcode := rfl
@[simp] theorem carWrite_hwidth (i : Nat) (v : Byte) (s : State) : (carWrite i v s).hwidth = s.hwidth := rfl
@[simp] theorem carWrite_hheight (i : Nat) (v : Byte) (s : State) : (carWrite i v s).hheight = s.hheight := rfl
@[simp] theorem carWrite_filesz (i : Nat) (v : Byte) (s : State) : (carWrite i v s).filesz = s.filesz := rfl
@[simp] theorem carWrite_hdrsz (i : Nat) (v : Byte) (s : State) : (carWrite i v s).hdrsz = s.hdrsz := rfl
@[simp] theorem carWrite_xbyte (i : Nat) (v : Byte) (s : State) : (carWrite i v s).xbyte = s.xbyte := rfl
@[simp] theorem carWrite_xbit (i : Nat) (v : Byte) (s : State) : (carWrite i v s).xbit = s.xbit := rfl
@[simp] theorem carWrite_xpix (i : Nat) (v : Byte) (s : State) : (carWrite i v s).xpix = s.xpix := rfl
@[simp] theorem carWrite_xx (i : Nat) (v : Byte) (s : State) : (carWrite i v s).xx = s.xx := rfl
@[simp] theorem carWrite_xy (i : Nat) (v : Byte) (s : State) : (carWrite i v s).xy = s.xy := rfl
@[simp] theorem carWrite_xch (i : Nat) (v : Byte) (s : State) : (carWrite i v s).xch = s.xch := rfl
@[simp] theorem carWrite_capneed (i : Nat) (v : Byte) (s : State) : (carWrite i v s).capneed = s.capneed := rfl
@[simp] theorem carWrite_defbits (i : Nat) (v : Byte) (s : State) : (carWrite i v s).defbits = s.defbits := rfl
@[simp] theorem carWrite_defbytes (i : Nat) (v : Byte) (s : State) : (carWrite i v s).defbytes = s.defbytes := rfl
@[simp] theorem carWrite_defpix (i : Nat) (v : Byte) (s : State) : (carWrite i v s).defpix = s.defpix := rfl
@[simp] theorem carWrite_ext (i : Nat) (v : Byte) (s : State) : (carWrite i v s).ext = s.ext := rfl
@[simp] theorem carWrite_pix (i : Nat) (v : Byte) (s : State) : (carWrite i v s).pix = Memory.write s.pix (carKey s.imgw.toNat i) v := rfl
@[simp] theorem carWrite_pay (i : Nat) (v : Byte) (s : State) : (carWrite i v s).pay = s.pay := rfl
@[simp] theorem carWrite_payCap (i : Nat) (v : Byte) (s : State) : (carWrite i v s).payCap = s.payCap := rfl
@[simp] theorem carWrite_pending (i : Nat) (v : Byte) (s : State) : (carWrite i v s).pending = s.pending := rfl
@[simp] theorem carWrite_returned (i : Nat) (v : Byte) (s : State) : (carWrite i v s).returned = s.returned := rfl

/-! ### payWrite -/

@[simp] theorem payWrite_fault (j : Nat) (v : Byte) (s : State) : (payWrite j v s).fault = s.fault := rfl
@[simp] theorem payWrite_subcause (j : Nat) (v : Byte) (s : State) : (payWrite j v s).subcause = s.subcause := rfl
@[simp] theorem payWrite_phase (j : Nat) (v : Byte) (s : State) : (payWrite j v s).phase = s.phase := rfl
@[simp] theorem payWrite_fits (j : Nat) (v : Byte) (s : State) : (payWrite j v s).fits = s.fits := rfl
@[simp] theorem payWrite_xvalid (j : Nat) (v : Byte) (s : State) : (payWrite j v s).xvalid = s.xvalid := rfl
@[simp] theorem payWrite_finfo (j : Nat) (v : Byte) (s : State) : (payWrite j v s).finfo = s.finfo := rfl
@[simp] theorem payWrite_imgw (j : Nat) (v : Byte) (s : State) : (payWrite j v s).imgw = s.imgw := rfl
@[simp] theorem payWrite_imgh (j : Nat) (v : Byte) (s : State) : (payWrite j v s).imgh = s.imgh := rfl
@[simp] theorem payWrite_lsbw (j : Nat) (v : Byte) (s : State) : (payWrite j v s).lsbw = s.lsbw := rfl
@[simp] theorem payWrite_bitpos (j : Nat) (v : Byte) (s : State) : (payWrite j v s).bitpos = s.bitpos := rfl
@[simp] theorem payWrite_idx (j : Nat) (v : Byte) (s : State) : (payWrite j v s).idx = s.idx := rfl
@[simp] theorem payWrite_data (j : Nat) (v : Byte) (s : State) : (payWrite j v s).data = s.data := rfl
@[simp] theorem payWrite_paylen (j : Nat) (v : Byte) (s : State) : (payWrite j v s).paylen = s.paylen := rfl
@[simp] theorem payWrite_extlen (j : Nat) (v : Byte) (s : State) : (payWrite j v s).extlen = s.extlen := rfl
@[simp] theorem payWrite_hcode (j : Nat) (v : Byte) (s : State) : (payWrite j v s).hcode = s.hcode := rfl
@[simp] theorem payWrite_hwidth (j : Nat) (v : Byte) (s : State) : (payWrite j v s).hwidth = s.hwidth := rfl
@[simp] theorem payWrite_hheight (j : Nat) (v : Byte) (s : State) : (payWrite j v s).hheight = s.hheight := rfl
@[simp] theorem payWrite_filesz (j : Nat) (v : Byte) (s : State) : (payWrite j v s).filesz = s.filesz := rfl
@[simp] theorem payWrite_hdrsz (j : Nat) (v : Byte) (s : State) : (payWrite j v s).hdrsz = s.hdrsz := rfl
@[simp] theorem payWrite_xbyte (j : Nat) (v : Byte) (s : State) : (payWrite j v s).xbyte = s.xbyte := rfl
@[simp] theorem payWrite_xbit (j : Nat) (v : Byte) (s : State) : (payWrite j v s).xbit = s.xbit := rfl
@[simp] theorem payWrite_xpix (j : Nat) (v : Byte) (s : State) : (payWrite j v s).xpix = s.xpix := rfl
@[simp] theorem payWrite_xx (j : Nat) (v : Byte) (s : State) : (payWrite j v s).xx = s.xx := rfl
@[simp] theorem payWrite_xy (j : Nat) (v : Byte) (s : State) : (payWrite j v s).xy = s.xy := rfl
@[simp] theorem payWrite_xch (j : Nat) (v : Byte) (s : State) : (payWrite j v s).xch = s.xch := rfl
@[simp] theorem payWrite_capneed (j : Nat) (v : Byte) (s : State) : (payWrite j v s).capneed = s.capneed := rfl
@[simp] theorem payWrite_defbits (j : Nat) (v : Byte) (s : State) : (payWrite j v s).defbits = s.defbits := rfl
@[simp] theorem payWrite_defbytes (j : Nat) (v : Byte) (s : State) : (payWrite j v s).defbytes = s.defbytes := rfl
@[simp] theorem payWrite_defpix (j : Nat) (v : Byte) (s : State) : (payWrite j v s).defpix = s.defpix := rfl
@[simp] theorem payWrite_ext (j : Nat) (v : Byte) (s : State) : (payWrite j v s).ext = s.ext := rfl
@[simp] theorem payWrite_pix (j : Nat) (v : Byte) (s : State) : (payWrite j v s).pix = s.pix := rfl
@[simp] theorem payWrite_pay (j : Nat) (v : Byte) (s : State) : (payWrite j v s).pay = Memory.write s.pay j v := rfl
@[simp] theorem payWrite_payCap (j : Nat) (v : Byte) (s : State) : (payWrite j v s).payCap = s.payCap := rfl
@[simp] theorem payWrite_pending (j : Nat) (v : Byte) (s : State) : (payWrite j v s).pending = s.pending := rfl
@[simp] theorem payWrite_returned (j : Nat) (v : Byte) (s : State) : (payWrite j v s).returned = s.returned := rfl

/-! ### extWrite -/

@[simp] theorem extWrite_fault (j : Nat) (v : Byte) (s : State) : (extWrite j v s).fault = s.fault := rfl
@[simp] theorem extWrite_subcause (j : Nat) (v : Byte) (s : State) : (extWrite j v s).subcause = s.subcause := rfl
@[simp] theorem extWrite_phase (j : Nat) (v : Byte) (s : State) : (extWrite j v s).phase = s.phase := rfl
@[simp] theorem extWrite_fits (j : Nat) (v : Byte) (s : State) : (extWrite j v s).fits = s.fits := rfl
@[simp] theorem extWrite_xvalid (j : Nat) (v : Byte) (s : State) : (extWrite j v s).xvalid = s.xvalid := rfl
@[simp] theorem extWrite_finfo (j : Nat) (v : Byte) (s : State) : (extWrite j v s).finfo = s.finfo := rfl
@[simp] theorem extWrite_imgw (j : Nat) (v : Byte) (s : State) : (extWrite j v s).imgw = s.imgw := rfl
@[simp] theorem extWrite_imgh (j : Nat) (v : Byte) (s : State) : (extWrite j v s).imgh = s.imgh := rfl
@[simp] theorem extWrite_lsbw (j : Nat) (v : Byte) (s : State) : (extWrite j v s).lsbw = s.lsbw := rfl
@[simp] theorem extWrite_bitpos (j : Nat) (v : Byte) (s : State) : (extWrite j v s).bitpos = s.bitpos := rfl
@[simp] theorem extWrite_idx (j : Nat) (v : Byte) (s : State) : (extWrite j v s).idx = s.idx := rfl
@[simp] theorem extWrite_data (j : Nat) (v : Byte) (s : State) : (extWrite j v s).data = s.data := rfl
@[simp] theorem extWrite_paylen (j : Nat) (v : Byte) (s : State) : (extWrite j v s).paylen = s.paylen := rfl
@[simp] theorem extWrite_extlen (j : Nat) (v : Byte) (s : State) : (extWrite j v s).extlen = s.extlen := rfl
@[simp] theorem extWrite_hcode (j : Nat) (v : Byte) (s : State) : (extWrite j v s).hcode = s.hcode := rfl
@[simp] theorem extWrite_hwidth (j : Nat) (v : Byte) (s : State) : (extWrite j v s).hwidth = s.hwidth := rfl
@[simp] theorem extWrite_hheight (j : Nat) (v : Byte) (s : State) : (extWrite j v s).hheight = s.hheight := rfl
@[simp] theorem extWrite_filesz (j : Nat) (v : Byte) (s : State) : (extWrite j v s).filesz = s.filesz := rfl
@[simp] theorem extWrite_hdrsz (j : Nat) (v : Byte) (s : State) : (extWrite j v s).hdrsz = s.hdrsz := rfl
@[simp] theorem extWrite_xbyte (j : Nat) (v : Byte) (s : State) : (extWrite j v s).xbyte = s.xbyte := rfl
@[simp] theorem extWrite_xbit (j : Nat) (v : Byte) (s : State) : (extWrite j v s).xbit = s.xbit := rfl
@[simp] theorem extWrite_xpix (j : Nat) (v : Byte) (s : State) : (extWrite j v s).xpix = s.xpix := rfl
@[simp] theorem extWrite_xx (j : Nat) (v : Byte) (s : State) : (extWrite j v s).xx = s.xx := rfl
@[simp] theorem extWrite_xy (j : Nat) (v : Byte) (s : State) : (extWrite j v s).xy = s.xy := rfl
@[simp] theorem extWrite_xch (j : Nat) (v : Byte) (s : State) : (extWrite j v s).xch = s.xch := rfl
@[simp] theorem extWrite_capneed (j : Nat) (v : Byte) (s : State) : (extWrite j v s).capneed = s.capneed := rfl
@[simp] theorem extWrite_defbits (j : Nat) (v : Byte) (s : State) : (extWrite j v s).defbits = s.defbits := rfl
@[simp] theorem extWrite_defbytes (j : Nat) (v : Byte) (s : State) : (extWrite j v s).defbytes = s.defbytes := rfl
@[simp] theorem extWrite_defpix (j : Nat) (v : Byte) (s : State) : (extWrite j v s).defpix = s.defpix := rfl
@[simp] theorem extWrite_ext (j : Nat) (v : Byte) (s : State) : (extWrite j v s).ext = s.ext.setIfInBounds j v := rfl
@[simp] theorem extWrite_pix (j : Nat) (v : Byte) (s : State) : (extWrite j v s).pix = s.pix := rfl
@[simp] theorem extWrite_pay (j : Nat) (v : Byte) (s : State) : (extWrite j v s).pay = s.pay := rfl
@[simp] theorem extWrite_payCap (j : Nat) (v : Byte) (s : State) : (extWrite j v s).payCap = s.payCap := rfl
@[simp] theorem extWrite_pending (j : Nat) (v : Byte) (s : State) : (extWrite j v s).pending = s.pending := rfl
@[simp] theorem extWrite_returned (j : Nat) (v : Byte) (s : State) : (extWrite j v s).returned = s.returned := rfl

/-! ### raise -/

@[simp] theorem raise_fault (c : FaultCode) (sub info : Nat) (s : State) : (raise c sub info s).fault = c := rfl
@[simp] theorem raise_subcause (c : FaultCode) (sub info : Nat) (s : State) : (raise c sub info s).subcause = BitVec.ofNat 4 sub := rfl
@[simp] theorem raise_phase (c : FaultCode) (sub info : Nat) (s : State) : (raise c sub info s).phase = s.phase := rfl
@[simp] theorem raise_fits (c : FaultCode) (sub info : Nat) (s : State) : (raise c sub info s).fits = s.fits := rfl
@[simp] theorem raise_xvalid (c : FaultCode) (sub info : Nat) (s : State) : (raise c sub info s).xvalid = s.xvalid := rfl
@[simp] theorem raise_finfo (c : FaultCode) (sub info : Nat) (s : State) : (raise c sub info s).finfo = BitVec.ofNat 64 info := rfl
@[simp] theorem raise_imgw (c : FaultCode) (sub info : Nat) (s : State) : (raise c sub info s).imgw = s.imgw := rfl
@[simp] theorem raise_imgh (c : FaultCode) (sub info : Nat) (s : State) : (raise c sub info s).imgh = s.imgh := rfl
@[simp] theorem raise_lsbw (c : FaultCode) (sub info : Nat) (s : State) : (raise c sub info s).lsbw = s.lsbw := rfl
@[simp] theorem raise_bitpos (c : FaultCode) (sub info : Nat) (s : State) : (raise c sub info s).bitpos = s.bitpos := rfl
@[simp] theorem raise_idx (c : FaultCode) (sub info : Nat) (s : State) : (raise c sub info s).idx = s.idx := rfl
@[simp] theorem raise_data (c : FaultCode) (sub info : Nat) (s : State) : (raise c sub info s).data = s.data := rfl
@[simp] theorem raise_paylen (c : FaultCode) (sub info : Nat) (s : State) : (raise c sub info s).paylen = s.paylen := rfl
@[simp] theorem raise_extlen (c : FaultCode) (sub info : Nat) (s : State) : (raise c sub info s).extlen = s.extlen := rfl
@[simp] theorem raise_hcode (c : FaultCode) (sub info : Nat) (s : State) : (raise c sub info s).hcode = s.hcode := rfl
@[simp] theorem raise_hwidth (c : FaultCode) (sub info : Nat) (s : State) : (raise c sub info s).hwidth = s.hwidth := rfl
@[simp] theorem raise_hheight (c : FaultCode) (sub info : Nat) (s : State) : (raise c sub info s).hheight = s.hheight := rfl
@[simp] theorem raise_filesz (c : FaultCode) (sub info : Nat) (s : State) : (raise c sub info s).filesz = s.filesz := rfl
@[simp] theorem raise_hdrsz (c : FaultCode) (sub info : Nat) (s : State) : (raise c sub info s).hdrsz = s.hdrsz := rfl
@[simp] theorem raise_xbyte (c : FaultCode) (sub info : Nat) (s : State) : (raise c sub info s).xbyte = s.xbyte := rfl
@[simp] theorem raise_xbit (c : FaultCode) (sub info : Nat) (s : State) : (raise c sub info s).xbit = s.xbit := rfl
@[simp] theorem raise_xpix (c : FaultCode) (sub info : Nat) (s : State) : (raise c sub info s).xpix = s.xpix := rfl
@[simp] theorem raise_xx (c : FaultCode) (sub info : Nat) (s : State) : (raise c sub info s).xx = s.xx := rfl
@[simp] theorem raise_xy (c : FaultCode) (sub info : Nat) (s : State) : (raise c sub info s).xy = s.xy := rfl
@[simp] theorem raise_xch (c : FaultCode) (sub info : Nat) (s : State) : (raise c sub info s).xch = s.xch := rfl
@[simp] theorem raise_capneed (c : FaultCode) (sub info : Nat) (s : State) : (raise c sub info s).capneed = s.capneed := rfl
@[simp] theorem raise_defbits (c : FaultCode) (sub info : Nat) (s : State) : (raise c sub info s).defbits = s.defbits := rfl
@[simp] theorem raise_defbytes (c : FaultCode) (sub info : Nat) (s : State) : (raise c sub info s).defbytes = s.defbytes := rfl
@[simp] theorem raise_defpix (c : FaultCode) (sub info : Nat) (s : State) : (raise c sub info s).defpix = s.defpix := rfl
@[simp] theorem raise_ext (c : FaultCode) (sub info : Nat) (s : State) : (raise c sub info s).ext = s.ext := rfl
@[simp] theorem raise_pix (c : FaultCode) (sub info : Nat) (s : State) : (raise c sub info s).pix = s.pix := rfl
@[simp] theorem raise_pay (c : FaultCode) (sub info : Nat) (s : State) : (raise c sub info s).pay = s.pay := rfl
@[simp] theorem raise_payCap (c : FaultCode) (sub info : Nat) (s : State) : (raise c sub info s).payCap = s.payCap := rfl
@[simp] theorem raise_pending (c : FaultCode) (sub info : Nat) (s : State) : (raise c sub info s).pending = s.pending := rfl
@[simp] theorem raise_returned (c : FaultCode) (sub info : Nat) (s : State) : (raise c sub info s).returned = s.returned := rfl

/-! ### locate -/

@[simp] theorem locate_fault (i : Nat) (s : State) : (locate i s).fault = s.fault := rfl
@[simp] theorem locate_subcause (i : Nat) (s : State) : (locate i s).subcause = s.subcause := rfl
@[simp] theorem locate_phase (i : Nat) (s : State) : (locate i s).phase = s.phase := rfl
@[simp] theorem locate_fits (i : Nat) (s : State) : (locate i s).fits = s.fits := rfl
@[simp] theorem locate_xvalid (i : Nat) (s : State) : (locate i s).xvalid = inCarrier i s := rfl
@[simp] theorem locate_finfo (i : Nat) (s : State) : (locate i s).finfo = s.finfo := rfl
@[simp] theorem locate_imgw (i : Nat) (s : State) : (locate i s).imgw = s.imgw := rfl
@[simp] theorem locate_imgh (i : Nat) (s : State) : (locate i s).imgh = s.imgh := rfl
@[simp] theorem locate_lsbw (i : Nat) (s : State) : (locate i s).lsbw = s.lsbw := rfl
@[simp] theorem locate_bitpos (i : Nat) (s : State) : (locate i s).bitpos = s.bitpos := rfl
@[simp] theorem locate_idx (i : Nat) (s : State) : (locate i s).idx = s.idx := rfl
@[simp] theorem locate_data (i : Nat) (s : State) : (locate i s).data = s.data := rfl
@[simp] theorem locate_paylen (i : Nat) (s : State) : (locate i s).paylen = s.paylen := rfl
@[simp] theorem locate_extlen (i : Nat) (s : State) : (locate i s).extlen = s.extlen := rfl
@[simp] theorem locate_hcode (i : Nat) (s : State) : (locate i s).hcode = s.hcode := rfl
@[simp] theorem locate_hwidth (i : Nat) (s : State) : (locate i s).hwidth = s.hwidth := rfl
@[simp] theorem locate_hheight (i : Nat) (s : State) : (locate i s).hheight = s.hheight := rfl
@[simp] theorem locate_filesz (i : Nat) (s : State) : (locate i s).filesz = s.filesz := rfl
@[simp] theorem locate_hdrsz (i : Nat) (s : State) : (locate i s).hdrsz = s.hdrsz := rfl
@[simp] theorem locate_xbyte (i : Nat) (s : State) : (locate i s).xbyte = s.xbyte := rfl
@[simp] theorem locate_xbit (i : Nat) (s : State) : (locate i s).xbit = s.xbit := rfl
@[simp] theorem locate_xpix (i : Nat) (s : State) : (locate i s).xpix = BitVec.ofNat 32 (pixelOf i) := rfl
@[simp] theorem locate_xx (i : Nat) (s : State) : (locate i s).xx = if inCarrier i s then BitVec.ofNat 11 (colOf s.imgw.toNat i) else 0 := rfl
@[simp] theorem locate_xy (i : Nat) (s : State) : (locate i s).xy = if inCarrier i s then BitVec.ofNat 11 (rowOf s.imgw.toNat i) else 0 := rfl
@[simp] theorem locate_xch (i : Nat) (s : State) : (locate i s).xch = BitVec.ofNat 2 (chanOf i) := rfl
@[simp] theorem locate_capneed (i : Nat) (s : State) : (locate i s).capneed = s.capneed := rfl
@[simp] theorem locate_defbits (i : Nat) (s : State) : (locate i s).defbits = s.defbits := rfl
@[simp] theorem locate_defbytes (i : Nat) (s : State) : (locate i s).defbytes = s.defbytes := rfl
@[simp] theorem locate_defpix (i : Nat) (s : State) : (locate i s).defpix = s.defpix := rfl
@[simp] theorem locate_ext (i : Nat) (s : State) : (locate i s).ext = s.ext := rfl
@[simp] theorem locate_pix (i : Nat) (s : State) : (locate i s).pix = s.pix := rfl
@[simp] theorem locate_pay (i : Nat) (s : State) : (locate i s).pay = s.pay := rfl
@[simp] theorem locate_payCap (i : Nat) (s : State) : (locate i s).payCap = s.payCap := rfl
@[simp] theorem locate_pending (i : Nat) (s : State) : (locate i s).pending = s.pending := rfl
@[simp] theorem locate_returned (i : Nat) (s : State) : (locate i s).returned = s.returned := rfl

/-! ### plan -/

@[simp] theorem plan_fault (t : Nat) (s : State) : (plan t s).fault = s.fault := rfl
@[simp] theorem plan_subcause (t : Nat) (s : State) : (plan t s).subcause = s.subcause := rfl
@[simp] theorem plan_phase (t : Nat) (s : State) : (plan t s).phase = s.phase := rfl
@[simp] theorem plan_fits (t : Nat) (s : State) : (plan t s).fits = planFits (carLen s) t s.lsbw.toNat := rfl
@[simp] theorem plan_xvalid (t : Nat) (s : State) : (plan t s).xvalid = s.xvalid := rfl
@[simp] theorem plan_finfo (t : Nat) (s : State) : (plan t s).finfo = s.finfo := rfl
@[simp] theorem plan_imgw (t : Nat) (s : State) : (plan t s).imgw = s.imgw := rfl
@[simp] theorem plan_imgh (t : Nat) (s : State) : (plan t s).imgh = s.imgh := rfl
@[simp] theorem plan_lsbw (t : Nat) (s : State) : (plan t s).lsbw = s.lsbw := rfl
@[simp] theorem plan_bitpos (t : Nat) (s : State) : (plan t s).bitpos = s.bitpos := rfl
@[simp] theorem plan_idx (t : Nat) (s : State) : (plan t s).idx = s.idx := rfl
@[simp] theorem plan_data (t : Nat) (s : State) : (plan t s).data = s.data := rfl
@[simp] theorem plan_paylen (t : Nat) (s : State) : (plan t s).paylen = s.paylen := rfl
@[simp] theorem plan_extlen (t : Nat) (s : State) : (plan t s).extlen = s.extlen := rfl
@[simp] theorem plan_hcode (t : Nat) (s : State) : (plan t s).hcode = s.hcode := rfl
@[simp] theorem plan_hwidth (t : Nat) (s : State) : (plan t s).hwidth = s.hwidth := rfl
@[simp] theorem plan_hheight (t : Nat) (s : State) : (plan t s).hheight = s.hheight := rfl
@[simp] theorem plan_filesz (t : Nat) (s : State) : (plan t s).filesz = s.filesz := rfl
@[simp] theorem plan_hdrsz (t : Nat) (s : State) : (plan t s).hdrsz = s.hdrsz := rfl
@[simp] theorem plan_xbyte (t : Nat) (s : State) : (plan t s).xbyte = s.xbyte := rfl
@[simp] theorem plan_xbit (t : Nat) (s : State) : (plan t s).xbit = s.xbit := rfl
@[simp] theorem plan_xpix (t : Nat) (s : State) : (plan t s).xpix = s.xpix := rfl
@[simp] theorem plan_xx (t : Nat) (s : State) : (plan t s).xx = s.xx := rfl
@[simp] theorem plan_xy (t : Nat) (s : State) : (plan t s).xy = s.xy := rfl
@[simp] theorem plan_xch (t : Nat) (s : State) : (plan t s).xch = s.xch := rfl
@[simp] theorem plan_capneed (t : Nat) (s : State) : (plan t s).capneed = BitVec.ofNat 33 (planNeed t s.lsbw.toNat) := rfl
@[simp] theorem plan_defbits (t : Nat) (s : State) : (plan t s).defbits = BitVec.ofNat 33 (planDefBits (carLen s) t s.lsbw.toNat) := rfl
@[simp] theorem plan_defbytes (t : Nat) (s : State) : (plan t s).defbytes = BitVec.ofNat 33 (planDefBytes (carLen s) t s.lsbw.toNat) := rfl
@[simp] theorem plan_defpix (t : Nat) (s : State) : (plan t s).defpix = BitVec.ofNat 32 (planDefPix (carLen s) t s.lsbw.toNat) := rfl
@[simp] theorem plan_ext (t : Nat) (s : State) : (plan t s).ext = s.ext := rfl
@[simp] theorem plan_pix (t : Nat) (s : State) : (plan t s).pix = s.pix := rfl
@[simp] theorem plan_pay (t : Nat) (s : State) : (plan t s).pay = s.pay := rfl
@[simp] theorem plan_payCap (t : Nat) (s : State) : (plan t s).payCap = s.payCap := rfl
@[simp] theorem plan_pending (t : Nat) (s : State) : (plan t s).pending = s.pending := rfl
@[simp] theorem plan_returned (t : Nat) (s : State) : (plan t s).returned = s.returned := rfl

/-! ### writeBit -/

@[simp] theorem writeBit_fault (k : Nat) (b : Bool) (s : State) : (writeBit k b s).fault = s.fault := rfl
@[simp] theorem writeBit_subcause (k : Nat) (b : Bool) (s : State) : (writeBit k b s).subcause = s.subcause := rfl
@[simp] theorem writeBit_phase (k : Nat) (b : Bool) (s : State) : (writeBit k b s).phase = s.phase := rfl
@[simp] theorem writeBit_fits (k : Nat) (b : Bool) (s : State) : (writeBit k b s).fits = s.fits := rfl
@[simp] theorem writeBit_xvalid (k : Nat) (b : Bool) (s : State) : (writeBit k b s).xvalid = s.xvalid := rfl
@[simp] theorem writeBit_finfo (k : Nat) (b : Bool) (s : State) : (writeBit k b s).finfo = s.finfo := rfl
@[simp] theorem writeBit_imgw (k : Nat) (b : Bool) (s : State) : (writeBit k b s).imgw = s.imgw := rfl
@[simp] theorem writeBit_imgh (k : Nat) (b : Bool) (s : State) : (writeBit k b s).imgh = s.imgh := rfl
@[simp] theorem writeBit_lsbw (k : Nat) (b : Bool) (s : State) : (writeBit k b s).lsbw = s.lsbw := rfl
@[simp] theorem writeBit_bitpos (k : Nat) (b : Bool) (s : State) : (writeBit k b s).bitpos = s.bitpos := rfl
@[simp] theorem writeBit_idx (k : Nat) (b : Bool) (s : State) : (writeBit k b s).idx = s.idx := rfl
@[simp] theorem writeBit_data (k : Nat) (b : Bool) (s : State) : (writeBit k b s).data = s.data := rfl
@[simp] theorem writeBit_paylen (k : Nat) (b : Bool) (s : State) : (writeBit k b s).paylen = s.paylen := rfl
@[simp] theorem writeBit_extlen (k : Nat) (b : Bool) (s : State) : (writeBit k b s).extlen = s.extlen := rfl
@[simp] theorem writeBit_hcode (k : Nat) (b : Bool) (s : State) : (writeBit k b s).hcode = s.hcode := rfl
@[simp] theorem writeBit_hwidth (k : Nat) (b : Bool) (s : State) : (writeBit k b s).hwidth = s.hwidth := rfl
@[simp] theorem writeBit_hheight (k : Nat) (b : Bool) (s : State) : (writeBit k b s).hheight = s.hheight := rfl
@[simp] theorem writeBit_filesz (k : Nat) (b : Bool) (s : State) : (writeBit k b s).filesz = s.filesz := rfl
@[simp] theorem writeBit_hdrsz (k : Nat) (b : Bool) (s : State) : (writeBit k b s).hdrsz = s.hdrsz := rfl
@[simp] theorem writeBit_xbyte (k : Nat) (b : Bool) (s : State) : (writeBit k b s).xbyte = s.xbyte := rfl
@[simp] theorem writeBit_xbit (k : Nat) (b : Bool) (s : State) : (writeBit k b s).xbit = s.xbit := rfl
@[simp] theorem writeBit_xpix (k : Nat) (b : Bool) (s : State) : (writeBit k b s).xpix = s.xpix := rfl
@[simp] theorem writeBit_xx (k : Nat) (b : Bool) (s : State) : (writeBit k b s).xx = s.xx := rfl
@[simp] theorem writeBit_xy (k : Nat) (b : Bool) (s : State) : (writeBit k b s).xy = s.xy := rfl
@[simp] theorem writeBit_xch (k : Nat) (b : Bool) (s : State) : (writeBit k b s).xch = s.xch := rfl
@[simp] theorem writeBit_capneed (k : Nat) (b : Bool) (s : State) : (writeBit k b s).capneed = s.capneed := rfl
@[simp] theorem writeBit_defbits (k : Nat) (b : Bool) (s : State) : (writeBit k b s).defbits = s.defbits := rfl
@[simp] theorem writeBit_defbytes (k : Nat) (b : Bool) (s : State) : (writeBit k b s).defbytes = s.defbytes := rfl
@[simp] theorem writeBit_defpix (k : Nat) (b : Bool) (s : State) : (writeBit k b s).defpix = s.defpix := rfl
@[simp] theorem writeBit_ext (k : Nat) (b : Bool) (s : State) : (writeBit k b s).ext = s.ext := rfl
@[simp] theorem writeBit_pay (k : Nat) (b : Bool) (s : State) : (writeBit k b s).pay = s.pay := rfl
@[simp] theorem writeBit_payCap (k : Nat) (b : Bool) (s : State) : (writeBit k b s).payCap = s.payCap := rfl
@[simp] theorem writeBit_pending (k : Nat) (b : Bool) (s : State) : (writeBit k b s).pending = s.pending := rfl
@[simp] theorem writeBit_returned (k : Nat) (b : Bool) (s : State) : (writeBit k b s).returned = s.returned := rfl

/-! ### atFrameWidth -/

@[simp] theorem atFrameWidth_fault (s : State) : (atFrameWidth s).fault = s.fault := rfl
@[simp] theorem atFrameWidth_subcause (s : State) : (atFrameWidth s).subcause = s.subcause := rfl
@[simp] theorem atFrameWidth_phase (s : State) : (atFrameWidth s).phase = s.phase := rfl
@[simp] theorem atFrameWidth_fits (s : State) : (atFrameWidth s).fits = s.fits := rfl
@[simp] theorem atFrameWidth_xvalid (s : State) : (atFrameWidth s).xvalid = s.xvalid := rfl
@[simp] theorem atFrameWidth_finfo (s : State) : (atFrameWidth s).finfo = s.finfo := rfl
@[simp] theorem atFrameWidth_imgw (s : State) : (atFrameWidth s).imgw = s.imgw := rfl
@[simp] theorem atFrameWidth_imgh (s : State) : (atFrameWidth s).imgh = s.imgh := rfl
@[simp] theorem atFrameWidth_lsbw (s : State) : (atFrameWidth s).lsbw = BitVec.ofNat 3 (readField 2 3 s) := rfl
@[simp] theorem atFrameWidth_bitpos (s : State) : (atFrameWidth s).bitpos = s.bitpos := rfl
@[simp] theorem atFrameWidth_idx (s : State) : (atFrameWidth s).idx = s.idx := rfl
@[simp] theorem atFrameWidth_data (s : State) : (atFrameWidth s).data = s.data := rfl
@[simp] theorem atFrameWidth_paylen (s : State) : (atFrameWidth s).paylen = s.paylen := rfl
@[simp] theorem atFrameWidth_extlen (s : State) : (atFrameWidth s).extlen = s.extlen := rfl
@[simp] theorem atFrameWidth_hcode (s : State) : (atFrameWidth s).hcode = s.hcode := rfl
@[simp] theorem atFrameWidth_hwidth (s : State) : (atFrameWidth s).hwidth = s.hwidth := rfl
@[simp] theorem atFrameWidth_hheight (s : State) : (atFrameWidth s).hheight = s.hheight := rfl
@[simp] theorem atFrameWidth_filesz (s : State) : (atFrameWidth s).filesz = s.filesz := rfl
@[simp] theorem atFrameWidth_hdrsz (s : State) : (atFrameWidth s).hdrsz = s.hdrsz := rfl
@[simp] theorem atFrameWidth_xbyte (s : State) : (atFrameWidth s).xbyte = s.xbyte := rfl
@[simp] theorem atFrameWidth_xbit (s : State) : (atFrameWidth s).xbit = s.xbit := rfl
@[simp] theorem atFrameWidth_xpix (s : State) : (atFrameWidth s).xpix = s.xpix := rfl
@[simp] theorem atFrameWidth_xx (s : State) : (atFrameWidth s).xx = s.xx := rfl
@[simp] theorem atFrameWidth_xy (s : State) : (atFrameWidth s).xy = s.xy := rfl
@[simp] theorem atFrameWidth_xch (s : State) : (atFrameWidth s).xch = s.xch := rfl
@[simp] theorem atFrameWidth_capneed (s : State) : (atFrameWidth s).capneed = s.capneed := rfl
@[simp] theorem atFrameWidth_defbits (s : State) : (atFrameWidth s).defbits = s.defbits := rfl
@[simp] theorem atFrameWidth_defbytes (s : State) : (atFrameWidth s).defbytes = s.defbytes := rfl
@[simp] theorem atFrameWidth_defpix (s : State) : (atFrameWidth s).defpix = s.defpix := rfl
@[simp] theorem atFrameWidth_ext (s : State) : (atFrameWidth s).ext = s.ext := rfl
@[simp] theorem atFrameWidth_pix (s : State) : (atFrameWidth s).pix = s.pix := rfl
@[simp] theorem atFrameWidth_pay (s : State) : (atFrameWidth s).pay = s.pay := rfl
@[simp] theorem atFrameWidth_payCap (s : State) : (atFrameWidth s).payCap = s.payCap := rfl
@[simp] theorem atFrameWidth_pending (s : State) : (atFrameWidth s).pending = s.pending := rfl
@[simp] theorem atFrameWidth_returned (s : State) : (atFrameWidth s).returned = s.returned := rfl

/-! ### builtHeader -/

@[simp] theorem builtHeader_fault (s : State) : (builtHeader s).fault = s.fault := rfl
@[simp] theorem builtHeader_subcause (s : State) : (builtHeader s).subcause = s.subcause := rfl
@[simp] theorem builtHeader_phase (s : State) : (builtHeader s).phase = s.phase := rfl
@[simp] theorem builtHeader_fits (s : State) : (builtHeader s).fits = s.fits := rfl
@[simp] theorem builtHeader_xvalid (s : State) : (builtHeader s).xvalid = s.xvalid := rfl
@[simp] theorem builtHeader_finfo (s : State) : (builtHeader s).finfo = s.finfo := rfl
@[simp] theorem builtHeader_imgw (s : State) : (builtHeader s).imgw = s.imgw := rfl
@[simp] theorem builtHeader_imgh (s : State) : (builtHeader s).imgh = s.imgh := rfl
@[simp] theorem builtHeader_lsbw (s : State) : (builtHeader s).lsbw = s.lsbw := rfl
@[simp] theorem builtHeader_bitpos (s : State) : (builtHeader s).bitpos = s.bitpos := rfl
@[simp] theorem builtHeader_idx (s : State) : (builtHeader s).idx = s.idx := rfl
@[simp] theorem builtHeader_data (s : State) : (builtHeader s).data = s.data := rfl
@[simp] theorem builtHeader_paylen (s : State) : (builtHeader s).paylen = s.paylen := rfl
@[simp] theorem builtHeader_extlen (s : State) : (builtHeader s).extlen = s.extlen := rfl
@[simp] theorem builtHeader_hcode (s : State) : (builtHeader s).hcode = 3 := rfl
@[simp] theorem builtHeader_hwidth (s : State) : (builtHeader s).hwidth = s.imgw := rfl
@[simp] theorem builtHeader_hheight (s : State) : (builtHeader s).hheight = s.imgh := rfl
@[simp] theorem builtHeader_filesz (s : State) : (builtHeader s).filesz = BitVec.ofNat 32 (8 * s.paylen.toNat) := rfl
@[simp] theorem builtHeader_hdrsz (s : State) : (builtHeader s).hdrsz = BitVec.ofNat 11 (99 + 8 * s.extlen.toNat) := rfl
@[simp] theorem builtHeader_xbyte (s : State) : (builtHeader s).xbyte = s.xbyte := rfl
@[simp] theorem builtHeader_xbit (s : State) : (builtHeader s).xbit = s.xbit := rfl
@[simp] theorem builtHeader_xpix (s : State) : (builtHeader s).xpix = s.xpix := rfl
@[simp] theorem builtHeader_xx (s : State) : (builtHeader s).xx = s.xx := rfl
@[simp] theorem builtHeader_xy (s : State) : (builtHeader s).xy = s.xy := rfl
@[simp] theorem builtHeader_xch (s : State) : (builtHeader s).xch = s.xch := rfl
@[simp] theorem builtHeader_capneed (s : State) : (builtHeader s).capneed = s.capneed := rfl
@[simp] theorem builtHeader_defbits (s : State) : (builtHeader s).defbits = s.defbits := rfl
@[simp] theorem builtHeader_defbytes (s : State) : (builtHeader s).defbytes = s.defbytes := rfl
@[simp] theorem builtHeader_defpix (s : State) : (builtHeader s).defpix = s.defpix := rfl
@[simp] theorem builtHeader_ext (s : State) : (builtHeader s).ext = s.ext := rfl
@[simp] theorem builtHeader_pix (s : State) : (builtHeader s).pix = s.pix := rfl
@[simp] theorem builtHeader_pay (s : State) : (builtHeader s).pay = s.pay := rfl
@[simp] theorem builtHeader_payCap (s : State) : (builtHeader s).payCap = s.payCap := rfl
@[simp] theorem builtHeader_pending (s : State) : (builtHeader s).pending = s.pending := rfl
@[simp] theorem builtHeader_returned (s : State) : (builtHeader s).returned = s.returned := rfl

/-! ### resetRegs -/

@[simp] theorem resetRegs_fault (s : State) : (resetRegs s).fault = .noFault := rfl
@[simp] theorem resetRegs_subcause (s : State) : (resetRegs s).subcause = 0 := rfl
@[simp] theorem resetRegs_phase (s : State) : (resetRegs s).phase = .idle := rfl
@[simp] theorem resetRegs_fits (s : State) : (resetRegs s).fits = false := rfl
@[simp] theorem resetRegs_xvalid (s : State) : (resetRegs s).xvalid = false := rfl
@[simp] theorem resetRegs_finfo (s : State) : (resetRegs s).finfo = 0 := rfl
@[simp] theorem resetRegs_imgw (s : State) : (resetRegs s).imgw = 0 := rfl
@[simp] theorem resetRegs_imgh (s : State) : (resetRegs s).imgh = 0 := rfl
@[simp] theorem resetRegs_lsbw (s : State) : (resetRegs s).lsbw = 0 := rfl
@[simp] theorem resetRegs_bitpos (s : State) : (resetRegs s).bitpos = 0 := rfl
@[simp] theorem resetRegs_idx (s : State) : (resetRegs s).idx = 0 := rfl
@[simp] theorem resetRegs_data (s : State) : (resetRegs s).data = 0 := rfl
@[simp] theorem resetRegs_paylen (s : State) : (resetRegs s).paylen = 0 := rfl
@[simp] theorem resetRegs_extlen (s : State) : (resetRegs s).extlen = 0 := rfl
@[simp] theorem resetRegs_hcode (s : State) : (resetRegs s).hcode = 0 := rfl
@[simp] theorem resetRegs_hwidth (s : State) : (resetRegs s).hwidth = 0 := rfl
@[simp] theorem resetRegs_hheight (s : State) : (resetRegs s).hheight = 0 := rfl
@[simp] theorem resetRegs_filesz (s : State) : (resetRegs s).filesz = 0 := rfl
@[simp] theorem resetRegs_hdrsz (s : State) : (resetRegs s).hdrsz = 0 := rfl
@[simp] theorem resetRegs_xbyte (s : State) : (resetRegs s).xbyte = 0 := rfl
@[simp] theorem resetRegs_xbit (s : State) : (resetRegs s).xbit = 0 := rfl
@[simp] theorem resetRegs_xpix (s : State) : (resetRegs s).xpix = 0 := rfl
@[simp] theorem resetRegs_xx (s : State) : (resetRegs s).xx = 0 := rfl
@[simp] theorem resetRegs_xy (s : State) : (resetRegs s).xy = 0 := rfl
@[simp] theorem resetRegs_xch (s : State) : (resetRegs s).xch = 0 := rfl
@[simp] theorem resetRegs_capneed (s : State) : (resetRegs s).capneed = 0 := rfl
@[simp] theorem resetRegs_defbits (s : State) : (resetRegs s).defbits = 0 := rfl
@[simp] theorem resetRegs_defbytes (s : State) : (resetRegs s).defbytes = 0 := rfl
@[simp] theorem resetRegs_defpix (s : State) : (resetRegs s).defpix = 0 := rfl
@[simp] theorem resetRegs_ext (s : State) : (resetRegs s).ext = Vector.replicate 243 0 := rfl
@[simp] theorem resetRegs_pix (s : State) : (resetRegs s).pix = s.pix := rfl
@[simp] theorem resetRegs_pay (s : State) : (resetRegs s).pay = s.pay := rfl
@[simp] theorem resetRegs_payCap (s : State) : (resetRegs s).payCap = s.payCap := rfl
@[simp] theorem resetRegs_pending (s : State) : (resetRegs s).pending = s.pending := rfl
@[simp] theorem resetRegs_returned (s : State) : (resetRegs s).returned = s.returned := rfl

end Sys2Proof.Machine
end

