-- ==== Sys2Proof/Laws/Memory.lean ====
section
/-! SUPPORT. The laws of memory as plain data: read after write, the canonical form and the bound kept by every write, and
the same for the four spaces (spec 20_memory.md rules R70, R73, R80). -/

namespace Sys2Proof.Machine

@[simp] theorem Memory.read?_nil (a : Nat) : Memory.read? [] a = none := rfl

theorem Memory.read?_write_same (m : Memory) (a : Nat) (v : Byte) :
    Memory.read? (Memory.write m a v) a = some v := by
  induction m with
  | nil => simp [Memory.write, Memory.read?]
  | cons c m ih =>
    obtain ⟨b, w⟩ := c
    unfold Memory.write
    split
    · simp [Memory.read?]
    · split
      · simp [Memory.read?]
      · rename_i h1 h2; simp [Memory.read?, h2, ih]

theorem Memory.read?_write_other (m : Memory) {a b : Nat} (v : Byte) (h : a ≠ b) :
    Memory.read? (Memory.write m b v) a = Memory.read? m a := by
  induction m with
  | nil => simp [Memory.write, Memory.read?, h]
  | cons c m ih =>
    obtain ⟨d, w⟩ := c
    unfold Memory.write
    split
    · simp [Memory.read?, h]
    · split
      · rename_i h1 h2; subst h2; simp [Memory.read?, h]
      · simp [Memory.read?, ih]

/-- A write reads back at its own address and leaves every other address alone. -/
theorem Memory.read?_write (m : Memory) (a b : Nat) (v : Byte) :
    Memory.read? (Memory.write m b v) a = if a = b then some v else Memory.read? m a := by
  split
  · rename_i h; subst h; exact Memory.read?_write_same m a v
  · rename_i h; exact Memory.read?_write_other m v h

theorem Memory.risingFrom_mono {m : Memory} {lo lo' : Nat} (hle : lo' ≤ lo) (h : Memory.risingFrom lo m = true) :
    Memory.risingFrom lo' m = true := by
  cases m with
  | nil => rfl
  | cons c m =>
    obtain ⟨b, w⟩ := c
    simp only [Memory.risingFrom, Bool.and_eq_true, decide_eq_true_eq] at h ⊢
    exact ⟨by omega, h.2⟩

theorem Memory.risingFrom_write {m : Memory} {lo a : Nat} (v : Byte) (ha : lo ≤ a)
    (h : Memory.risingFrom lo m = true) : Memory.risingFrom lo (Memory.write m a v) = true := by
  induction m generalizing lo with
  | nil => simp [Memory.write, Memory.risingFrom, ha]
  | cons c m ih =>
    obtain ⟨b, w⟩ := c
    simp only [Memory.risingFrom, Bool.and_eq_true, decide_eq_true_eq] at h
    unfold Memory.write
    split
    · simp only [Memory.risingFrom, Bool.and_eq_true, decide_eq_true_eq]; exact ⟨ha, by omega, h.2⟩
    · split
      · rename_i h1 h2; subst h2; simp only [Memory.risingFrom, Bool.and_eq_true, decide_eq_true_eq]; exact ⟨ha, h.2⟩
      · simp only [Memory.risingFrom, Bool.and_eq_true, decide_eq_true_eq]
        exact ⟨h.1, ih (by omega) h.2⟩

/-- A write keeps the canonical form. -/
theorem Memory.wf_write {m : Memory} (a : Nat) (v : Byte) (h : Memory.wf m = true) :
    Memory.wf (Memory.write m a v) = true :=
  Memory.risingFrom_write v (Nat.zero_le a) h

@[simp] theorem Memory.wf_nil : Memory.wf [] = true := rfl

@[simp] theorem Memory.below_nil (n : Nat) : Memory.below n [] = true := rfl

/-- A write to an address below a bound keeps every listed address below it. -/
theorem Memory.below_write {m : Memory} {n a : Nat} (v : Byte) (ha : a < n) (h : Memory.below n m = true) :
    Memory.below n (Memory.write m a v) = true := by
  induction m with
  | nil => simp [Memory.write, Memory.below, ha]
  | cons c m ih =>
    obtain ⟨b, w⟩ := c
    simp only [Memory.below, List.all_cons, Bool.and_eq_true, decide_eq_true_eq] at h ih ⊢
    unfold Memory.write
    split
    · simp only [List.all_cons, Bool.and_eq_true, decide_eq_true_eq]; exact ⟨ha, h.1, h.2⟩
    · split
      · simp only [List.all_cons, Bool.and_eq_true, decide_eq_true_eq]; exact ⟨ha, h.2⟩
      · simp only [List.all_cons, Bool.and_eq_true, decide_eq_true_eq]; exact ⟨h.1, ih h.2⟩

/-! ### The four spaces -/

theorem pixByte_setPixByte (a b : Nat) (v : Byte) (s : State) :
    pixByte a (setPixByte b v s) = if a = b then v else pixByte a s := by
  simp only [pixByte, setPixByte_pix, Memory.read?_write]
  split <;> rfl

theorem pixByte_carWrite (a i : Nat) (v : Byte) (s : State) :
    pixByte a (carWrite i v s) = if a = carKey s.imgw.toNat i then v else pixByte a s :=
  pixByte_setPixByte a _ v s

theorem payRead_payWrite (j k : Nat) (v : Byte) (s : State) :
    payRead j (payWrite k v s) = if j = k then v else payRead j s := by
  simp only [payRead, payWrite_pay, Memory.read?_write]
  split <;> rfl

theorem extRead_extWrite (j k : Nat) (v : Byte) (s : State) :
    extRead j (extWrite k v s) = if j = k ∧ k < 243 then v else extRead j s := by
  simp only [extRead, extWrite_ext, List.getD_eq_getElem?_getD]
  have hl : s.ext.toList.length = 243 := by simp
  rw [show (s.ext.setIfInBounds k v).toList = s.ext.toList.set k v by simp]
  rw [List.getElem?_set]
  split
  · rename_i h; subst h
    split
    · rename_i h2; rw [hl] at h2; simp [h2]
    · rename_i h2; rw [hl] at h2
      simp [h2]
  · rename_i h
    rw [if_neg (by rintro ⟨h1, -⟩; exact h h1.symm)]

@[simp] theorem pixByte_payWrite (a j : Nat) (v : Byte) (s : State) : pixByte a (payWrite j v s) = pixByte a s := rfl

@[simp] theorem payRead_setPixByte (j a : Nat) (v : Byte) (s : State) : payRead j (setPixByte a v s) = payRead j s := rfl

/-- Within the grid the cell number names the cell: a carrier byte below N lies in an existing cell. -/
theorem carKey_lt_pixCells {w h i : Nat} (hw : w ≤ 2047) (hh : h ≤ 2047) (hi : i < 3 * w * h) :
    carKey w i < Config.pixCells := by
  have hp : i / 3 < w * h := by
    rw [Nat.div_lt_iff_lt_mul (by decide)]
    calc i < 3 * w * h := hi
      _ = w * h * 3 := by ring
  have hw0 : 0 < w := by
    rcases Nat.eq_zero_or_pos w with rfl | h0
    · simp at hi
    · exact h0
  have hx : i / 3 % w < w := Nat.mod_lt _ hw0
  have hy : i / 3 / w < h := by
    rw [Nat.div_lt_iff_lt_mul hw0, Nat.mul_comm]
    exact hp
  have hc : i % 3 < 3 := Nat.mod_lt _ (by decide)
  simp only [carKey, pixKey, colOf, rowOf, pixelOf, chanOf, Config.maxDim, Config.pixCells]
  have h1 : i / 3 / w ≤ 2046 := by omega
  have h2 : i / 3 % w ≤ 2046 := by omega
  omega

/-- Two carrier bytes of one image lie in different cells. -/
theorem carKey_injective {w i j : Nat} (hw0 : 0 < w) (hw : w ≤ 2047) (h : carKey w i = carKey w j) : i = j := by
  have hi : i / 3 % w < w := Nat.mod_lt _ hw0
  have hj : j / 3 % w < w := Nat.mod_lt _ hw0
  have hci : i % 3 < 3 := Nat.mod_lt _ (by decide)
  have hcj : j % 3 < 3 := Nat.mod_lt _ (by decide)
  simp only [carKey, pixKey, colOf, rowOf, pixelOf, chanOf, Config.maxDim] at h
  have hc : i % 3 = j % 3 := by omega
  have hcell : i / 3 / w * 2047 + i / 3 % w = j / 3 / w * 2047 + j / 3 % w := by omega
  have hrow : i / 3 / w = j / 3 / w := by omega
  have hcol : i / 3 % w = j / 3 % w := by omega
  have hp : i / 3 = j / 3 := by
    rw [← Nat.div_add_mod (i / 3) w, ← Nat.div_add_mod (j / 3) w, hrow, hcol]
  omega

end Sys2Proof.Machine
end

