-- ==== Sys2Proof/Laws/Ops.lean ====
section
/-! SUPPORT. One lemma per shared operation that says once everything it can do; later proofs cite these and unfold
nothing (spec 42_translator_mux.md rules R185, R186, 43_header.md rule R220, 60_exceptions.md rules R310, R312). -/

namespace Sys2Proof.Machine

/-! ### Commands, tests and raises -/

@[simp] theorem finalState_ok (s : State) : finalState (.ok s) = s := rfl

@[simp] theorem finalState_error (s : State) : finalState (.error s) = s := rfl

theorem command_live {body : State → Run State} {s : State} (h : Live s) :
    command body s = .next (finalState (body s)) := by
  simp [command, h]

theorem command_faulted {body : State → Run State} {s : State} (h : ¬ Live s) : command body s = .next s := by
  simp [command, h]

/-- Every command ends in a next state: the model stops on none (rule R348). -/
theorem command_next (body : State → Run State) (s : State) :
    command body s = .next (if Live s then finalState (body s) else s) := rfl

theorem require_of {p : Prop} [Decidable p] (h : p) (c : FaultCode) (sub info : Nat) (s : State) :
    require p c sub info s = .ok () := by
  simp [require, h]

theorem require_of_not {p : Prop} [Decidable p] (h : ¬ p) (c : FaultCode) (sub info : Nat) (s : State) :
    require p c sub info s = .error (raise c sub info s) := by
  simp [require, fail, h]

theorem require_eq_ok {p : Prop} [Decidable p] {c : FaultCode} {sub info : Nat} {s : State} :
    require p c sub info s = .ok () ↔ p := by
  by_cases h : p <;> simp [require, fail, h]

/-! ### CheckSpan (rule R185) -/

/-- Everything CheckSpan can answer. -/
theorem checkSpan_cases (k n : Nat) (kind : SpanKind) (s : State) :
    (spanFits k n s ∧ checkSpan k n kind s = .ok ()) ∨
    (5 ≤ k + n - 1 ∧ s.lsbw = 0 ∧ checkSpan k n kind s = .error (raise .paramError 1 k s)) ∨
    ((k + n - 1 ≤ 4 ∨ s.lsbw ≠ 0) ∧ carLen s ≤ (translate (k + n - 1) s.lsbw.toNat).1 ∧
      checkSpan k n kind s = .error (match kind with
        | .write => raise .carrierOverrun 0 ((translate (k + n - 1) s.lsbw.toNat).1 + 1 - carLen s) s
        | .read => raise .truncated s.phase.code k s)) := by
  by_cases h1 : 5 ≤ k + n - 1 ∧ s.lsbw = 0
  · right; left
    exact ⟨h1.1, h1.2, by simp [checkSpan, needw, h1, fail]⟩
  · have hw : k + n - 1 ≤ 4 ∨ s.lsbw ≠ 0 := by
      by_cases h : s.lsbw = 0
      · left
        by_contra hc
        exact h1 ⟨by omega, h⟩
      · exact .inr h
    have hn : ¬ (needw (k + n - 1) = true ∧ s.lsbw = 0) := by simpa [needw] using h1
    by_cases h2 : carLen s ≤ (translate (k + n - 1) s.lsbw.toNat).1
    · right; right
      refine ⟨hw, h2, ?_⟩
      simp only [checkSpan]
      rw [if_neg hn, if_pos h2]
      cases kind <;> rfl
    · left
      refine ⟨⟨hw, by omega⟩, ?_⟩
      simp only [checkSpan]
      rw [if_neg hn, if_neg h2]

theorem checkSpan_ok {k n : Nat} {s : State} (kind : SpanKind) (h : spanFits k n s) :
    checkSpan k n kind s = .ok () := by
  rcases checkSpan_cases k n kind s with h1 | h1 | h1
  · exact h1.2
  · obtain ⟨h2, h3, -⟩ := h1
    rcases h.1 with h4 | h4
    · omega
    · exact absurd h3 h4
  · exact absurd h.2 (by omega)

theorem checkSpan_eq_ok {k n : Nat} {kind : SpanKind} {s : State} :
    checkSpan k n kind s = .ok () ↔ spanFits k n s := by
  refine ⟨fun h => ?_, checkSpan_ok kind⟩
  rcases checkSpan_cases k n kind s with h1 | h1 | h1
  · exact h1.1
  · rw [h1.2.2] at h; cases h
  · rw [h1.2.2] at h; cases h

theorem getField_ok {k n : Nat} {s : State} (h : spanFits k n s) : getField k n s = .ok (readField k n s) := by
  simp only [getField, checkSpan_ok .read h]; rfl

/-- Everything Get can answer. -/
theorem getField_cases (k n : Nat) (s : State) :
    (spanFits k n s ∧ getField k n s = .ok (readField k n s)) ∨
    (5 ≤ k + n - 1 ∧ s.lsbw = 0 ∧ getField k n s = .error (raise .paramError 1 k s)) ∨
    ((k + n - 1 ≤ 4 ∨ s.lsbw ≠ 0) ∧ carLen s ≤ (translate (k + n - 1) s.lsbw.toNat).1 ∧
      getField k n s = .error (raise .truncated s.phase.code k s)) := by
  rcases checkSpan_cases k n .read s with h | h | h
  · exact .inl ⟨h.1, getField_ok h.1⟩
  · exact .inr (.inl ⟨h.1, h.2.1, by simp only [getField, h.2.2]; rfl⟩)
  · exact .inr (.inr ⟨h.1, h.2.1, by simp only [getField, h.2.2]; rfl⟩)

/-! ### Bits and fields (rules R121, R186) -/

@[simp] theorem fieldbits_length (v b : Nat) : (fieldbits v b).length = b := by simp [fieldbits]

@[simp] theorem readBits_length (k n : Nat) (s : State) : (readBits k n s).length = n := by simp [readBits]

theorem fieldval_lt (l : Bits) : fieldval l < 2 ^ l.length := by
  induction l with
  | nil => simp [fieldval]
  | cons b l ih =>
    have : b.toNat ≤ 1 := Bool.toNat_le b
    simp only [fieldval, List.length_cons, Nat.pow_succ]
    omega

theorem readField_lt (k b : Nat) (s : State) : readField k b s < 2 ^ b := by
  have := fieldval_lt (readBits k b s)
  rwa [readBits_length] at this

/-- What a bit on the carrier is depends on PIX, IMGW and LSBW alone. -/
theorem readBit_congr {s t : State} (hp : t.pix = s.pix) (hw : t.imgw = s.imgw) (hl : t.lsbw = s.lsbw) (k : Nat) :
    readBit k t = readBit k s := by
  simp only [readBit, carRead, pixByte, hp, hw, hl]

theorem readBits_congr {s t : State} (hp : t.pix = s.pix) (hw : t.imgw = s.imgw) (hl : t.lsbw = s.lsbw) (k n : Nat) :
    readBits k n t = readBits k n s := by
  simp only [readBits, readBit_congr hp hw hl]

theorem readField_congr {s t : State} (hp : t.pix = s.pix) (hw : t.imgw = s.imgw) (hl : t.lsbw = s.lsbw) (k b : Nat) :
    readField k b t = readField k b s := by
  simp only [readField, readBits_congr hp hw hl]

theorem carLen_congr {s t : State} (hw : t.imgw = s.imgw) (hh : t.imgh = s.imgh) : carLen t = carLen s := by
  simp only [carLen, hw, hh]

theorem spanFits_congr {s t : State} (hw : t.imgw = s.imgw) (hh : t.imgh = s.imgh) (hl : t.lsbw = s.lsbw) (k n : Nat) :
    spanFits k n t ↔ spanFits k n s := by
  simp only [spanFits, carLen_congr hw hh, hl]

/-! ### WriteBits (rule R186): only PIX changes -/

@[simp] theorem writeBits_nil (k : Nat) (s : State) : writeBits k [] s = s := rfl

@[simp] theorem writeBits_cons (k : Nat) (b : Bool) (l : Bits) (s : State) :
    writeBits k (b :: l) s = writeBits (k + 1) l (writeBit k b s) := rfl

theorem writeBits_append (k : Nat) (l l' : Bits) (s : State) :
    writeBits k (l ++ l') s = writeBits (k + l.length) l' (writeBits k l s) := by
  induction l generalizing k s with
  | nil => simp
  | cons b l ih =>
    simp only [List.cons_append, writeBits_cons, ih, List.length_cons]
    rw [show k + 1 + l.length = k + (l.length + 1) by omega]

theorem writeBit_eq (k : Nat) (b : Bool) (s : State) : writeBit k b s = { s with pix := (writeBit k b s).pix } := rfl

theorem writeBits_eq (k : Nat) (l : Bits) (s : State) : writeBits k l s = { s with pix := (writeBits k l s).pix } := by
  induction l generalizing k s with
  | nil => rfl
  | cons b l ih => rw [writeBits_cons, ih, writeBit_eq]

@[simp] theorem writeBits_fault (k : Nat) (l : Bits) (s : State) : (writeBits k l s).fault = s.fault := by rw [writeBits_eq]
@[simp] theorem writeBits_subcause (k : Nat) (l : Bits) (s : State) : (writeBits k l s).subcause = s.subcause := by rw [writeBits_eq]
@[simp] theorem writeBits_phase (k : Nat) (l : Bits) (s : State) : (writeBits k l s).phase = s.phase := by rw [writeBits_eq]
@[simp] theorem writeBits_fits (k : Nat) (l : Bits) (s : State) : (writeBits k l s).fits = s.fits := by rw [writeBits_eq]
@[simp] theorem writeBits_xvalid (k : Nat) (l : Bits) (s : State) : (writeBits k l s).xvalid = s.xvalid := by rw [writeBits_eq]
@[simp] theorem writeBits_finfo (k : Nat) (l : Bits) (s : State) : (writeBits k l s).finfo = s.finfo := by rw [writeBits_eq]
@[simp] theorem writeBits_imgw (k : Nat) (l : Bits) (s : State) : (writeBits k l s).imgw = s.imgw := by rw [writeBits_eq]
@[simp] theorem writeBits_imgh (k : Nat) (l : Bits) (s : State) : (writeBits k l s).imgh = s.imgh := by rw [writeBits_eq]
@[simp] theorem writeBits_lsbw (k : Nat) (l : Bits) (s : State) : (writeBits k l s).lsbw = s.lsbw := by rw [writeBits_eq]
@[simp] theorem writeBits_bitpos (k : Nat) (l : Bits) (s : State) : (writeBits k l s).bitpos = s.bitpos := by rw [writeBits_eq]
@[simp] theorem writeBits_idx (k : Nat) (l : Bits) (s : State) : (writeBits k l s).idx = s.idx := by rw [writeBits_eq]
@[simp] theorem writeBits_data (k : Nat) (l : Bits) (s : State) : (writeBits k l s).data = s.data := by rw [writeBits_eq]
@[simp] theorem writeBits_paylen (k : Nat) (l : Bits) (s : State) : (writeBits k l s).paylen = s.paylen := by rw [writeBits_eq]
@[simp] theorem writeBits_extlen (k : Nat) (l : Bits) (s : State) : (writeBits k l s).extlen = s.extlen := by rw [writeBits_eq]
@[simp] theorem writeBits_hcode (k : Nat) (l : Bits) (s : State) : (writeBits k l s).hcode = s.hcode := by rw [writeBits_eq]
@[simp] theorem writeBits_hwidth (k : Nat) (l : Bits) (s : State) : (writeBits k l s).hwidth = s.hwidth := by rw [writeBits_eq]
@[simp] theorem writeBits_hheight (k : Nat) (l : Bits) (s : State) : (writeBits k l s).hheight = s.hheight := by rw [writeBits_eq]
@[simp] theorem writeBits_filesz (k : Nat) (l : Bits) (s : State) : (writeBits k l s).filesz = s.filesz := by rw [writeBits_eq]
@[simp] theorem writeBits_hdrsz (k : Nat) (l : Bits) (s : State) : (writeBits k l s).hdrsz = s.hdrsz := by rw [writeBits_eq]
@[simp] theorem writeBits_xbyte (k : Nat) (l : Bits) (s : State) : (writeBits k l s).xbyte = s.xbyte := by rw [writeBits_eq]
@[simp] theorem writeBits_xbit (k : Nat) (l : Bits) (s : State) : (writeBits k l s).xbit = s.xbit := by rw [writeBits_eq]
@[simp] theorem writeBits_xpix (k : Nat) (l : Bits) (s : State) : (writeBits k l s).xpix = s.xpix := by rw [writeBits_eq]
@[simp] theorem writeBits_xx (k : Nat) (l : Bits) (s : State) : (writeBits k l s).xx = s.xx := by rw [writeBits_eq]
@[simp] theorem writeBits_xy (k : Nat) (l : Bits) (s : State) : (writeBits k l s).xy = s.xy := by rw [writeBits_eq]
@[simp] theorem writeBits_xch (k : Nat) (l : Bits) (s : State) : (writeBits k l s).xch = s.xch := by rw [writeBits_eq]
@[simp] theorem writeBits_capneed (k : Nat) (l : Bits) (s : State) : (writeBits k l s).capneed = s.capneed := by rw [writeBits_eq]
@[simp] theorem writeBits_defbits (k : Nat) (l : Bits) (s : State) : (writeBits k l s).defbits = s.defbits := by rw [writeBits_eq]
@[simp] theorem writeBits_defbytes (k : Nat) (l : Bits) (s : State) : (writeBits k l s).defbytes = s.defbytes := by rw [writeBits_eq]
@[simp] theorem writeBits_defpix (k : Nat) (l : Bits) (s : State) : (writeBits k l s).defpix = s.defpix := by rw [writeBits_eq]
@[simp] theorem writeBits_ext (k : Nat) (l : Bits) (s : State) : (writeBits k l s).ext = s.ext := by rw [writeBits_eq]
@[simp] theorem writeBits_pay (k : Nat) (l : Bits) (s : State) : (writeBits k l s).pay = s.pay := by rw [writeBits_eq]
@[simp] theorem writeBits_payCap (k : Nat) (l : Bits) (s : State) : (writeBits k l s).payCap = s.payCap := by rw [writeBits_eq]
@[simp] theorem writeBits_pending (k : Nat) (l : Bits) (s : State) : (writeBits k l s).pending = s.pending := by rw [writeBits_eq]
@[simp] theorem writeBits_returned (k : Nat) (l : Bits) (s : State) : (writeBits k l s).returned = s.returned := by rw [writeBits_eq]

/-! ### Packing the payload (rule R275): only PAY changes -/

theorem loadPayload_eq (n j k : Nat) (s : State) : loadPayload n j k s = { s with pay := (loadPayload n j k s).pay } := by
  induction n generalizing j k s with
  | zero => rfl
  | succ n ih => rw [loadPayload, ih]; rfl

@[simp] theorem loadPayload_fault (n j k : Nat) (s : State) : (loadPayload n j k s).fault = s.fault := by rw [loadPayload_eq]
@[simp] theorem loadPayload_subcause (n j k : Nat) (s : State) : (loadPayload n j k s).subcause = s.subcause := by rw [loadPayload_eq]
@[simp] theorem loadPayload_phase (n j k : Nat) (s : State) : (loadPayload n j k s).phase = s.phase := by rw [loadPayload_eq]
@[simp] theorem loadPayload_fits (n j k : Nat) (s : State) : (loadPayload n j k s).fits = s.fits := by rw [loadPayload_eq]
@[simp] theorem loadPayload_xvalid (n j k : Nat) (s : State) : (loadPayload n j k s).xvalid = s.xvalid := by rw [loadPayload_eq]
@[simp] theorem loadPayload_finfo (n j k : Nat) (s : State) : (loadPayload n j k s).finfo = s.finfo := by rw [loadPayload_eq]
@[simp] theorem loadPayload_imgw (n j k : Nat) (s : State) : (loadPayload n j k s).imgw = s.imgw := by rw [loadPayload_eq]
@[simp] theorem loadPayload_imgh (n j k : Nat) (s : State) : (loadPayload n j k s).imgh = s.imgh := by rw [loadPayload_eq]
@[simp] theorem loadPayload_lsbw (n j k : Nat) (s : State) : (loadPayload n j k s).lsbw = s.lsbw := by rw [loadPayload_eq]
@[simp] theorem loadPayload_bitpos (n j k : Nat) (s : State) : (loadPayload n j k s).bitpos = s.bitpos := by rw [loadPayload_eq]
@[simp] theorem loadPayload_idx (n j k : Nat) (s : State) : (loadPayload n j k s).idx = s.idx := by rw [loadPayload_eq]
@[simp] theorem loadPayload_data (n j k : Nat) (s : State) : (loadPayload n j k s).data = s.data := by rw [loadPayload_eq]
@[simp] theorem loadPayload_paylen (n j k : Nat) (s : State) : (loadPayload n j k s).paylen = s.paylen := by rw [loadPayload_eq]
@[simp] theorem loadPayload_extlen (n j k : Nat) (s : State) : (loadPayload n j k s).extlen = s.extlen := by rw [loadPayload_eq]
@[simp] theorem loadPayload_hcode (n j k : Nat) (s : State) : (loadPayload n j k s).hcode = s.hcode := by rw [loadPayload_eq]
@[simp] theorem loadPayload_hwidth (n j k : Nat) (s : State) : (loadPayload n j k s).hwidth = s.hwidth := by rw [loadPayload_eq]
@[simp] theorem loadPayload_hheight (n j k : Nat) (s : State) : (loadPayload n j k s).hheight = s.hheight := by rw [loadPayload_eq]
@[simp] theorem loadPayload_filesz (n j k : Nat) (s : State) : (loadPayload n j k s).filesz = s.filesz := by rw [loadPayload_eq]
@[simp] theorem loadPayload_hdrsz (n j k : Nat) (s : State) : (loadPayload n j k s).hdrsz = s.hdrsz := by rw [loadPayload_eq]
@[simp] theorem loadPayload_xbyte (n j k : Nat) (s : State) : (loadPayload n j k s).xbyte = s.xbyte := by rw [loadPayload_eq]
@[simp] theorem loadPayload_xbit (n j k : Nat) (s : State) : (loadPayload n j k s).xbit = s.xbit := by rw [loadPayload_eq]
@[simp] theorem loadPayload_xpix (n j k : Nat) (s : State) : (loadPayload n j k s).xpix = s.xpix := by rw [loadPayload_eq]
@[simp] theorem loadPayload_xx (n j k : Nat) (s : State) : (loadPayload n j k s).xx = s.xx := by rw [loadPayload_eq]
@[simp] theorem loadPayload_xy (n j k : Nat) (s : State) : (loadPayload n j k s).xy = s.xy := by rw [loadPayload_eq]
@[simp] theorem loadPayload_xch (n j k : Nat) (s : State) : (loadPayload n j k s).xch = s.xch := by rw [loadPayload_eq]
@[simp] theorem loadPayload_capneed (n j k : Nat) (s : State) : (loadPayload n j k s).capneed = s.capneed := by rw [loadPayload_eq]
@[simp] theorem loadPayload_defbits (n j k : Nat) (s : State) : (loadPayload n j k s).defbits = s.defbits := by rw [loadPayload_eq]
@[simp] theorem loadPayload_defbytes (n j k : Nat) (s : State) : (loadPayload n j k s).defbytes = s.defbytes := by rw [loadPayload_eq]
@[simp] theorem loadPayload_defpix (n j k : Nat) (s : State) : (loadPayload n j k s).defpix = s.defpix := by rw [loadPayload_eq]
@[simp] theorem loadPayload_ext (n j k : Nat) (s : State) : (loadPayload n j k s).ext = s.ext := by rw [loadPayload_eq]
@[simp] theorem loadPayload_pix (n j k : Nat) (s : State) : (loadPayload n j k s).pix = s.pix := by rw [loadPayload_eq]
@[simp] theorem loadPayload_payCap (n j k : Nat) (s : State) : (loadPayload n j k s).payCap = s.payCap := by rw [loadPayload_eq]
@[simp] theorem loadPayload_pending (n j k : Nat) (s : State) : (loadPayload n j k s).pending = s.pending := by rw [loadPayload_eq]
@[simp] theorem loadPayload_returned (n j k : Nat) (s : State) : (loadPayload n j k s).returned = s.returned := by rw [loadPayload_eq]

/-! ### BuildHeader (rule R220) -/

/-- Everything BuildHeader can answer. -/
theorem buildHeader_cases (s : State) :
    (s.lsbw ≠ 0 ∧ s.extlen.toNat ≤ 243 ∧ buildHeader s = .ok (builtHeader s)) ∨
    (s.lsbw = 0 ∧ buildHeader s = .error (raise .paramError 1 0 s)) ∨
    (s.lsbw ≠ 0 ∧ 243 < s.extlen.toNat ∧ buildHeader s = .error (raise .paramError 2 s.extlen.toNat s)) := by
  by_cases h1 : s.lsbw = 0
  · right; left
    exact ⟨h1, by simp only [buildHeader, h1]; rfl⟩
  · by_cases h2 : s.extlen.toNat ≤ 243
    · left
      refine ⟨h1, h2, ?_⟩
      simp only [buildHeader, require_of h1, require_of (show s.extlen.toNat ≤ Config.extMax from h2)]
      rfl
    · right; right
      refine ⟨h1, by omega, ?_⟩
      simp only [buildHeader, require_of h1, require_of_not (show ¬ s.extlen.toNat ≤ Config.extMax from h2)]
      rfl

theorem buildHeader_ok {s : State} (h1 : s.lsbw ≠ 0) (h2 : s.extlen.toNat ≤ 243) :
    buildHeader s = .ok (builtHeader s) := by
  rcases buildHeader_cases s with h | h | h
  · exact h.2.2
  · exact absurd h.1 h1
  · omega

/-! ### translate stays inside the zone (rules R180, R182) -/

theorem translate_snd_le {k w : Nat} (hw : w ≤ 7) (h : k ≤ 4 ∨ w ≠ 0) : (translate k w).2 ≤ 6 := by
  unfold translate
  split
  · simp
  · split
    · simp
    · have hw0 : 0 < w := by omega
      have := Nat.mod_lt (k - 4) hw0
      show (k - 4) % w ≤ 6
      omega

theorem translate_fst_le (k w : Nat) : (translate k w).1 ≤ k := by
  unfold translate
  split
  · simp
  · split
    · simp; omega
    · have := Nat.div_le_self (k - 4) w
      show 4 + (k - 4) / w ≤ k
      omega

/-! ### One step -/

theorem step_nil {s : State} (h : s.pending = []) : step s = .next s := by simp only [step, h]

theorem step_cons {s : State} {m : HostMove} {rest : List HostMove} (h : s.pending = m :: rest) :
    step s = hostMove m { s with pending := rest } := by simp only [step, h]

end Sys2Proof.Machine
end

