-- ==== Sys2Proof/Laws/PerInstr.lean ====
section
/-! SUPPORT. Statements about each command as syntax, one lemma per constructor (LAWS.json names the family). -/

namespace Sys2Proof.Laws

/-- The fields of a command's data word are where rule R101 of spec 30_encoding.md puts them: OPC in 7:0, CNT in 13:8,
zeros in 31:14 and in 63:32. -/
def EncodedFields.Statement (i : Instr) : Prop :=
  (encode i).extractLsb' 0 8 = opcodeOf i ∧ (encode i).extractLsb' 8 6 = countOf i ∧
  (encode i).extractLsb' 14 18 = 0 ∧ (encode i).extractLsb' 32 32 = 0

theorem EncodedFields.nop : EncodedFields.Statement .nop := by
  unfold EncodedFields.Statement; decide

theorem EncodedFields.reset : EncodedFields.Statement .reset := by
  unfold EncodedFields.Statement; decide

theorem EncodedFields.flat : EncodedFields.Statement .flat := by
  unfold EncodedFields.Statement; decide

theorem EncodedFields.unflat : EncodedFields.Statement .unflat := by
  unfold EncodedFields.Statement; decide

theorem EncodedFields.carrd : EncodedFields.Statement .carrd := by
  unfold EncodedFields.Statement; decide

theorem EncodedFields.carwr : EncodedFields.Statement .carwr := by
  unfold EncodedFields.Statement; decide

theorem EncodedFields.xlate : EncodedFields.Statement .xlate := by
  unfold EncodedFields.Statement; decide

theorem EncodedFields.zonerd : EncodedFields.Statement .zonerd := by
  unfold EncodedFields.Statement; decide

theorem EncodedFields.zonewr : EncodedFields.Statement .zonewr := by
  unfold EncodedFields.Statement; decide

theorem EncodedFields.bitrd : EncodedFields.Statement .bitrd := by
  unfold EncodedFields.Statement; decide

theorem EncodedFields.bitwr : EncodedFields.Statement .bitwr := by
  unfold EncodedFields.Statement; decide

theorem EncodedFields.fldrd (n : BitVec 6) : EncodedFields.Statement (.fldrd n) := by
  unfold EncodedFields.Statement; revert n; decide

theorem EncodedFields.fldwr (n : BitVec 6) : EncodedFields.Statement (.fldwr n) := by
  unfold EncodedFields.Statement; revert n; decide

theorem EncodedFields.hdrbuild : EncodedFields.Statement .hdrbuild := by
  unfold EncodedFields.Statement; decide

theorem EncodedFields.hdrput : EncodedFields.Statement .hdrput := by
  unfold EncodedFields.Statement; decide

theorem EncodedFields.hdrget : EncodedFields.Statement .hdrget := by
  unfold EncodedFields.Statement; decide

theorem EncodedFields.capchk : EncodedFields.Statement .capchk := by
  unfold EncodedFields.Statement; decide

theorem EncodedFields.payput : EncodedFields.Statement .payput := by
  unfold EncodedFields.Statement; decide

theorem EncodedFields.payget : EncodedFields.Statement .payget := by
  unfold EncodedFields.Statement; decide

theorem EncodedFields.embed : EncodedFields.Statement .embed := by
  unfold EncodedFields.Statement; decide

theorem EncodedFields.extract : EncodedFields.Statement .extract := by
  unfold EncodedFields.Statement; decide

end Sys2Proof.Laws
end

