-- ==== Sys2Proof/Tests/Slice0.lean ====
section
/-! SUPPORT. The model's own tests. Expected results come from spec/: the encodings of 30_encoding.md rules R101 to R104
and the vectors of 95_test_vectors.md (named V… or P… there). The theorems witness_… show, for each statement with
hypotheses, concrete states and operands that meet them all, one for each clause. -/

open Sys2Proof Sys2Proof.Machine

namespace Sys2Proof.Tests

-- One theorem at a time: elaborating them side by side needs more thread stacks than the check's memory limit allows.
set_option Elab.async false

/-! ### Helpers: small states -/

/-- The state a command leaves. -/
def after (i : Instr) (s : State) : State :=
  match exec i s with
  | .next t => t
  | .fault _ | .refused _ => s

theorem exec_after (i : Instr) (s : State) : exec i s = .next (after i s) := by cases i <;> rfl

/-- The state a step leaves, if it leaves one. -/
def next? (s : State) : Option State :=
  match step s with
  | .next t => some t
  | .fault _ | .refused _ => none

/-- A state about to take this host move. -/
def taking (m : HostMove) (s : State) : State := { s with pending := [m] }

/-- A w × h image with CAR[i] = f i, at width l, everything else as after reset. -/
def imageOf (w h l : Nat) (f : Nat → Nat) : State :=
  { State.reset with
    imgw := BitVec.ofNat 11 w, imgh := BitVec.ofNat 11 h, lsbw := BitVec.ofNat 3 l
    pix := (List.range (3 * w * h)).map fun i => (carKey w i, BitVec.ofNat 8 (f i)) }

/-- The standard carrier of 95_test_vectors.md: CAR[i] = (37·i + 11) mod 256. -/
def image (w h l : Nat) : State := imageOf w h l fun i => 37 * i + 11

/-- A w × h image that spells these bits at width 1, one bit a byte. -/
def spelling (w h : Nat) (bits : Bits) : State := imageOf w h 0 fun i => (bits.getD i false).toNat

/-- The start of program P1 (also P4, P5) on a w × h image: width 4, extension a, payload 0x41. -/
def inputs (w h : Nat) : State :=
  { image w h 4 with ext := State.reset.ext.set 0 0x61, extlen := 1, pay := [(0, 0x41)], paylen := 1 }

/-- The inputs of V6.10: the extension 0x61 0x0A 0x62. -/
def inputsNewline : State :=
  { image 9 9 4 with
    ext := ((State.reset.ext.set 0 0x61).set 1 0x0A).set 2 0x62, extlen := 3, pay := [(0, 0x41)], paylen := 1 }

/-- A faulted state: the illegal word 2 (V2.4, step 1). -/
def faulted : State := { image 1 1 0 with fault := .illegalCommand, finfo := 2 }

/-- Some bytes of CAR, as numbers. -/
def car (s : State) (first n : Nat) : List Nat := (List.range n).map fun j => (carRead (first + j) s).toNat

/-! ### Well-formedness, decoding, encoding -/

theorem test_wellFormed_refuses_bad_counts :
    (Instr.fldrd 0).wellFormed = false ∧ (Instr.fldrd 33).wellFormed = false ∧
    (Instr.fldwr 0).wellFormed = false ∧ (Instr.fldwr 63).wellFormed = false ∧
    (Instr.fldrd 1).wellFormed = true ∧ (Instr.fldwr 32).wellFormed = true := by decide

/-- Every row's word, written out from the opcode map (rule R102): OPC in 7:0, CNT in 13:8, zeros above. -/
theorem test_decode_every_command :
    decode 0b00000000000000000000000000000000 = .ok .nop ∧
    decode 0b00000000000000000000000000000001 = .ok .reset ∧
    decode 0b00000000000000000000000000010000 = .ok .flat ∧
    decode 0b00000000000000000000000000010001 = .ok .unflat ∧
    decode 0b00000000000000000000000000010010 = .ok .carrd ∧
    decode 0b00000000000000000000000000010011 = .ok .carwr ∧
    decode 0b00000000000000000000000000100000 = .ok .xlate ∧
    decode 0b00000000000000000000000000100001 = .ok .zonerd ∧
    decode 0b00000000000000000000000000100010 = .ok .zonewr ∧
    decode 0b00000000000000000000000000100011 = .ok .bitrd ∧
    decode 0b00000000000000000000000000100100 = .ok .bitwr ∧
    decode 0b00000000000000000000101100100101 = .ok (.fldrd 11) ∧
    decode 0b00000000000000000010000000100110 = .ok (.fldwr 32) ∧
    decode 0b00000000000000000000000000110000 = .ok .hdrbuild ∧
    decode 0b00000000000000000000000000110001 = .ok .hdrput ∧
    decode 0b00000000000000000000000000110010 = .ok .hdrget ∧
    decode 0b00000000000000000000000000111000 = .ok .capchk ∧
    decode 0b00000000000000000000000001000000 = .ok .payput ∧
    decode 0b00000000000000000000000001000001 = .ok .payget ∧
    decode 0b00000000000000000000000001000010 = .ok .embed ∧
    decode 0b00000000000000000000000001000011 = .ok .extract := by decide +kernel

/-- V2.3: the illegal data values, with their reasons. -/
theorem test_decode_illegal_data :
    decode 0x2 = .error .noRow ∧ decode 0xF = .error .noRow ∧ decode 0x14 = .error .noRow ∧
    decode 0x27 = .error .noRow ∧ decode 0x33 = .error .noRow ∧ decode 0x39 = .error .noRow ∧
    decode 0x44 = .error .noRow ∧ decode 0xFF = .error .noRow ∧ decode 0x25 = .error .badCount ∧
    decode 0x2125 = .error .badCount ∧ decode 0x3F25 = .error .badCount ∧ decode 0x110 = .error .noRow ∧
    decode 0x4000 = .error .noRow ∧ decode 0x4042 = .error .noRow ∧ decode 0x80000000 = .error .noRow ∧
    decode 0x100000000 = .error .highBits ∧ decode 0x100000001 = .error .highBits ∧
    decode 0x8000000000000042 = .error .highBits := by decide +kernel

theorem test_encode_words :
    encode .embed = 0x42 ∧ encode (.fldrd 1) = 0x125 ∧ encode (.fldrd 32) = 0x2025 ∧ encode (.fldwr 11) = 0xB26 := by
  decide

/-- One word for each row of the opcode table. -/
def tableWords : List Nat :=
  [0x00, 0x01, 0x10, 0x11, 0x12, 0x13, 0x20, 0x21, 0x22, 0x23, 0x24, 0x125, 0x2026, 0x30, 0x31, 0x32, 0x38, 0x40, 0x41,
   0x42, 0x43]

/-- No two rows of the opcode map take one word (rule R102). -/
theorem test_opcode_rows_disjoint :
    opcodeRows.Pairwise fun a b => (a.mask &&& b.mask) &&& (a.pattern ^^^ b.pattern) ≠ 0 := by decide +kernel

theorem test_table_words_decode :
    (tableWords.map (decodeTableWord 32)).all Option.isSome = true ∧
    decodeTableWord 32 0x125 = some (.fldrd 1) ∧ decodeTableWord 32 0x43 = some .extract := by decide +kernel

/-- Every row's word, placed as the first command after reset, is fetched and run to a next state. -/
theorem test_table_words_step :
    tableWords.all (fun w => (next? (State.reset.withFetchWord 32 w)).isSome) = true := by decide +kernel

/-! ### The bus and the terminal state -/

/-- V2.1: writes keep the low bits. -/
theorem test_writes_truncate :
    (next? (taking (Asm.wr .lsbw 9) State.reset)).map (readIndex 0x005) = some 1 ∧
    (next? (taking (Asm.wr .imgw 0x800) State.reset)).map (readIndex 0x003) = some 0 ∧
    (next? (taking (Asm.wr .extlen 0x12C) State.reset)).map (readIndex 0x00A) = some 0x2C ∧
    (next? (taking (Asm.wr .paylen 0x20000005) State.reset)).map (readIndex 0x009) = some 5 ∧
    (next? (taking (Asm.wr (.ext 242) 0x1AB) State.reset)).map (readIndex 0x1F2) = some 0xAB ∧
    (next? (taking (Asm.wr .hcode 3) State.reset)).map (readIndex 0x00B) = some 0 := by decide +kernel

/-- V2.4: steps 2, 5 and 7. -/
theorem test_faulted_is_terminal :
    (next? (taking (Asm.wr .imgw 9) faulted)).map (readIndex 0x003) = some 1 ∧
    (next? (taking (.bus (.wr 0 0x100000001)) faulted)).map (readIndex 0x001) = some 9 ∧
    (next? (taking (Asm.cmd .reset) faulted)).map (readIndex 0x001) = some 0 := by decide +kernel

/-- STATUS, bit by bit (rule R30): P4's end value 0x804 and P7's 0x1000. -/
theorem test_status_view :
    statusView { State.reset with fits := true, fault := .carrierOverrun } = 0x804 ∧
    statusView { State.reset with xvalid := true } = 0x1000 ∧
    statusView { State.reset with fault := .truncated, subcause := 3, phase := .extension } = 0x335 := by decide

/-! ### The commands, one step each -/

/-- V3.1: IDX 31, IDX 105. -/
theorem test_flat :
    (after .flat { image 7 5 0 with idx := 31 }).xpix = 10 ∧ (after .flat { image 7 5 0 with idx := 31 }).xch = 1 ∧
    (after .flat { image 7 5 0 with idx := 31 }).xx = 3 ∧ (after .flat { image 7 5 0 with idx := 31 }).xy = 1 ∧
    (after .flat { image 7 5 0 with idx := 105 }).xpix = 35 ∧
    (after .flat { image 7 5 0 with idx := 105 }).xvalid = false := by decide +kernel

/-- V3.2. -/
theorem test_unflat :
    (after .unflat { image 7 5 0 with xx := 6, xy := 4, xch := 2 }).idx = 104 ∧
    (after .unflat { image 7 5 0 with xx := 7, idx := 9 }).idx = 9 ∧
    statusView (after .unflat { image 7 5 0 with xch := 3 }) = 0x58 := by decide +kernel

/-- V3.3. -/
theorem test_carrd :
    (after .carrd { image 7 5 0 with idx := 31 }).data = 0x86 ∧
    statusView (after .carrd { image 7 5 0 with idx := 105 }) = 0x48 := by decide +kernel

/-- V3.3. -/
theorem test_carwr :
    car (after .carwr { image 7 5 0 with idx := 31, data := 0x1234 }) 30 3 = [0x61, 0x34, 0xAB] := by decide +kernel

/-- V4.1: row w = 7, columns 10, 43 and 98. -/
theorem test_translate :
    Machine.translate 10 7 = (4, 6) ∧ Machine.translate 43 7 = (9, 4) ∧ Machine.translate 98 7 = (17, 3) ∧
    Machine.translate 4 0 = (4, 0) := by decide

/-- P7: XLATE behind the header. -/
theorem test_xlate :
    let t := after .xlate { image 9 9 2 with bitpos := 107 }
    t.xbyte = 55 ∧ t.xbit = 1 ∧ t.xx = 0 ∧ t.xy = 2 ∧ t.xch = 1 ∧ t.xvalid = true := by decide +kernel

/-- V5.2: CAR[5] = 0xC4 at width 4. -/
theorem test_zonerd :
    (after .zonerd { image 7 5 4 with idx := 5 }).data = 4 ∧
    (after .zonerd { image 7 5 4 with idx := 0 }).data = 1 := by decide +kernel

/-- Rule R192: only the zone of CAR[5] = 0xC4 changes, and of CAR[1] = 0x30 only position 0. -/
theorem test_zonewr :
    car (after .zonewr { image 7 5 4 with idx := 5, data := 0xFB }) 4 3 = [0x9F, 0xCB, 0xE9] ∧
    car (after .zonewr { image 7 5 4 with idx := 1, data := 0xFF }) 0 3 = [0x0B, 0x31, 0x55] := by decide +kernel

/-- V2.3: FLDRD 1 and FLDRD 32 on the standard carrier; BITRD reads the same bit. -/
theorem test_cursor_reads :
    (after (.fldrd 32) (image 7 5 4)).data = 0xD83E94F5 ∧ (after (.fldrd 32) (image 7 5 4)).bitpos = 32 ∧
    (after (.fldrd 1) (image 7 5 4)).data = 1 ∧ (after .bitrd (image 7 5 4)).data = 1 := by decide +kernel

/-- Rules R196, R198: a bit and a field into the low zones, the other positions kept. -/
theorem test_cursor_writes :
    car (after .bitwr { image 7 5 4 with bitpos := 1, data := 1 }) 0 3 = [0x0B, 0x31, 0x55] ∧
    car (after (.fldwr 3) { image 7 5 4 with bitpos := 2, data := 4 }) 0 6 = [0x0B, 0x30, 0x54, 0x7A, 0x9F, 0xC4] ∧
    (after (.fldwr 3) { image 7 5 4 with bitpos := 2, data := 4 }).bitpos = 5 := by decide +kernel

/-- Rule R127: the worked layout of P1's header, field by field. -/
theorem test_serialize :
    (serialize 4 7 5 [0x61] 8).map Bool.toNat =
      [1, 1] ++ [0, 0, 1] ++ [0, 0, 0, 1, 1, 1, 1, 0] ++ [1, 1, 1, 0, 0, 0, 0, 0, 0, 0, 0] ++
      [0, 0, 0, 1, 1, 1, 1, 0] ++ [1, 0, 1, 0, 0, 0, 0, 0, 0, 0, 0] ++ [0, 0, 0, 1, 1, 1, 1, 0] ++
      [1, 0, 0, 0, 0, 1, 1, 0] ++ [0, 1, 0, 1, 0, 0, 0, 0] ++ ([0, 0, 0, 1] ++ List.replicate 28 0) ++
      [0, 0, 0, 1, 1, 1, 1, 0] := by decide +kernel

/-- P7: HDRBUILD. -/
theorem test_hdrbuild :
    let t := after .hdrbuild { image 9 9 2 with extlen := 1, paylen := 2 }
    t.hdrsz = 107 ∧ t.filesz = 16 ∧ t.hwidth = 9 ∧ t.hcode = 3 := by decide +kernel

/-- V6.3: the header that just fits, and the one that just does not. -/
theorem test_hdrput :
    car (after .hdrput (imageOf 3 2 7 fun _ => 0)) 0 18 =
      [0x01, 0x01, 0x01, 0x01, 0x71, 0x0D, 0x00, 0x3C, 0x02, 0x00, 0x4F, 0x02, 0x00, 0x00, 0x00, 0x00, 0x40, 0x07] ∧
    statusView (after .hdrput (imageOf 3 2 6 fun _ => 0)) = 0x004 ∧
    (after .hdrput (imageOf 3 2 6 fun _ => 0)).finfo = 2 := by decide +kernel

/-- V6.8 style: a header laid out by hand at width 1 is read; a wrong separator 4 is sub-cause 8 in PHASE 4. -/
theorem test_hdrget :
    let t := after .hdrget (spelling 33 1 (serialize 1 33 1 [] 16))
    statusView t = 0x500 ∧ t.filesz = 16 ∧ t.hdrsz = 99 ∧ t.bitpos = 99 ∧ t.lsbw = 1 ∧
    statusView (after .hdrget (spelling 33 1 ((serialize 1 33 1 [] 16).take 91))) = 0x481 := by decide +kernel

/-- P4: CAPCHK. -/
theorem test_capchk :
    let t := after .capchk (inputs 5 2)
    statusView t = 0x800 ∧ t.capneed = 29 ∧ t.defbytes = 1 ∧ t.defbits = 5 ∧ t.defpix = 0 := by decide +kernel

/-- P7: CAR[54..65] after PAYPUT at bit 107 (the payload DE AD alone, on the standard carrier). -/
theorem test_payput :
    let t := after .payput { image 9 9 2 with bitpos := 107, pay := [(0, 0xDE), (1, 0xAD)], paylen := 2 }
    t.bitpos = 123 ∧ car t 56 8 = [0x23, 0x4B, 0x6E, 0x93, 0xB6, 0xDD, 0x01, 0x27] := by decide +kernel

/-- V8.4 style: PAYGET of one byte spelt at width 1, and a size that is no whole byte. -/
theorem test_payget :
    let s := { spelling 3 1 (fieldbits 0xA5 8) with lsbw := 1, filesz := 8 }
    (after .payget s).pay = [(0, 0xA5)] ∧ (after .payget s).phase = .done ∧ (after .payget s).paylen = 1 ∧
    statusView (after .payget { s with filesz := 12 }) = 0x616 := by decide +kernel

/-- P1: EMBED's registers and the bootstrap bytes. -/
theorem test_embed :
    let t := after .embed (inputs 7 5)
    statusView t = 0x800 ∧ t.bitpos = 115 ∧ t.hdrsz = 107 ∧ t.capneed = 29 ∧
    car t 0 4 = [0x0B, 0x31, 0x54, 0x7A] := by decide +kernel

/-- P4 and P5: the two ways the carrier can be too small. -/
theorem test_embed_faults :
    statusView (after .embed (inputs 5 2)) = 0x804 ∧ (after .embed (inputs 5 2)).finfo = 2 ∧
    statusView (after .embed (inputs 2 2)) = 0x002 ∧ (after .embed (inputs 2 2)).finfo = 17 := by decide +kernel

/-- P2: EXTRACT of what EMBED wrote, on a fresh block. -/
theorem test_extract :
    let t := after .extract { State.reset with imgw := 7, imgh := 5, pix := (after .embed (inputs 7 5)).pix }
    statusView t = 0x700 ∧ t.pay = [(0, 0x41)] ∧ t.ext[0] = 0x61 ∧ t.extlen = 1 ∧ t.bitpos = 115 := by decide +kernel

/-- The unnumbered memory laws' base case: the memories of State.reset are canonical. -/
theorem test_reset_memories_canonical :
    Memory.wf State.reset.pix = true ∧ Memory.wf State.reset.pay = true ∧
    Memory.wf (inputs 7 5).pix = true := by decide +kernel

/-! ### Witnesses: the hypotheses of the statements can be met -/

/-- For DecodeOfEncodeIsTheCommand and EncodeOfDecodeIsTheData. -/
theorem witness_decode_encode : (Instr.fldrd 32).wellFormed = true ∧ decode 0x2025 = .ok (.fldrd 32) := by decide +kernel

theorem witness_IllegalDataRaisesIllegalCommand :
    Live (taking (.bus (.wr 0 0x2125)) State.reset) ∧
    (taking (.bus (.wr 0 0x2125)) State.reset).pending = .bus (.wr 0 0x2125) :: [] ∧
    ¬ LegalData (0x2125 : BitVec 64).toNat ∧ LegalData (0x2025 : BitVec 64).toNat ∧
    LegalData (0x126 : BitVec 64).toNat ∧ ¬ LegalData (0x100000001 : BitVec 64).toNat := by decide +kernel

theorem witness_StepRunsTheDecodedCommand :
    (taking (.bus (.wr 0 0x42)) (inputs 7 5)).pending = .bus (.wr 0 0x42) :: [] ∧ decode 0x42 = .ok .embed := by
  decide +kernel

theorem witness_RegisterReadsGiveTheirValues :
    (taking (.bus (.rd 0x1F2)) State.reset).pending = .bus (.rd 0x1F2) :: [] ∧
    (∀ n ∈ [0x01B, 0x0FF, 0x1F3, 0xFFF], n < 4096 ∧ ((0x01B ≤ n ∧ n < 0x100) ∨ 0x1F3 ≤ n)) := by decide +kernel

theorem witness_RegisterWritesKeepTheLowBits :
    (∀ n ∈ [0x003, 0x015, 0x100, 0x1F2, 0x00B, 0x016, 0x0FF, 0x1F3], BitVec.ofNat 12 n ≠ 0) ∧
    (taking (.bus (.wr 0x003 5)) State.reset).pending = .bus (.wr 0x003 5) :: [] ∧
    Live (taking (.bus (.wr 0x003 5)) State.reset) ∧ ¬ Live (taking (.bus (.wr 0x003 5)) faulted) ∧
    (0x1F2 : BitVec 12).toNat = 0x100 + 242 ∧
    (∀ n ∈ [0x00B, 0x016, 0x0FF, 0x1F3],
      n ∉ [3, 4, 5, 6, 7, 8, 9, 10, 0x013, 0x014, 0x015] ∧ ¬ (0x100 ≤ n ∧ n < 0x1F3)) := by decide +kernel

theorem witness_FaultedStateIsTerminal :
    ¬ Live faulted ∧ (taking (.bus (.rd 1)) faulted).pending = .bus (.rd 1) :: [] ∧
    (taking (.bus (.wr 0 0x43)) faulted).pending = .bus (.wr 0 0x43) :: [] ∧
    ¬ ((0 : BitVec 12) = 0 ∧ (0x43 : BitVec 64) = 1) ∧
    (taking (.bus (.wr 0 1)) faulted).pending = .bus (.wr 0 1) :: [] ∧
    (taking .hardReset faulted).pending = .hardReset :: [] := by decide +kernel

theorem witness_HostCellWritesChangeOneCell :
    (taking (.pixWrite 2046 2046 2 7) State.reset).pending = .pixWrite 2046 2046 2 7 :: [] ∧
    (taking (.pixWrite 2047 0 0 7) State.reset).pending = .pixWrite 2047 0 0 7 :: [] ∧
    (taking (.payWrite 0xFFFFF 7) State.reset).pending = .payWrite 0xFFFFF 7 :: [] ∧
    0xFFFFF < State.reset.payCap.toNat ∧ State.reset.payCap.toNat ≤ 0x100000 := by decide +kernel

theorem witness_OnlyMissingCellsStopTheModel :
    State.reset.pending = [] ∧ step (taking (.pixRead 0 2047 0) State.reset) = .fault .noPixCell ∧
    step (taking (.payRead 0x100000) State.reset) = .fault .noPayCell ∧
    step (taking .hardReset State.reset) = .next (resetRegs State.reset) := ⟨rfl, rfl, rfl, rfl⟩

theorem witness_SetextLoadsTheExtension :
    (List.replicate 243 (0x62 : Byte)).length ≤ 243 ∧ Live { State.reset with pending := Asm.setext [] } ∧
    Live { State.reset with pending := Asm.setext (List.replicate 243 0x62) } := by decide +kernel

/-- XX = 6, XY = 4, XCH = 2 is the last cell; one more in any of them is outside. -/
theorem witness_UnflatGivesTheIndex :
    Live (image 7 5 0) ∧
    (let s := { image 7 5 0 with xx := 6, xy := 4, xch := 2 }
     s.xx.toNat < s.imgw.toNat ∧ s.xy.toNat < s.imgh.toNat ∧ s.xch.toNat ≠ 3) ∧
    (image 7 5 0).imgw.toNat ≤ (7 : BitVec 11).toNat ∧ (image 7 5 0).imgh.toNat ≤ (5 : BitVec 11).toNat ∧
    (3 : BitVec 2).toNat = 3 := by decide +kernel

/-- For FLAT, CARRD and CARWR: the last byte index and the first one outside. -/
theorem witness_FlatCarrdCarwr :
    let s := image 7 5 0
    Live s ∧ (104 : BitVec 24).toNat < 3 * s.imgw.toNat * s.imgh.toNat ∧
    3 * s.imgw.toNat * s.imgh.toNat ≤ (105 : BitVec 24).toNat := by decide +kernel

/-- The last byte of a 7 × 5 image and its cell. -/
theorem witness_FlattenMapIsInvertible : 104 < 3 * 7 * 5 ∧ 6 < 7 ∧ 4 < 5 ∧ 2 ≤ 2 := by decide

/-- Where the lines of translate, ew, zonebase, capbits and bytesexact meet, at the least and the greatest width. -/
theorem witness_TranslateIsStrictlyIncreasing :
    4 ≤ 4 ∧ 5 ≤ 5 ∧ 1 ≤ 1 ∧ 1 ≤ 7 ∧ 7 ≤ 7 ∧ 4 < 5 ∧ 3 ≤ 3 ∧ 4 ≤ 4 ∧ 0 < ew 3 7 ∧ 6 < ew 4 7 ∧
    (Machine.translate 4 1 = (4, 0) ∧ Machine.translate 5 1 = (5, 0) ∧ Machine.translate 5 7 = (4, 1)) := by decide

/-- The multiplexer's effective widths 1 and 7 and positions 0 and 6. -/
theorem witness_MultiplexerKeepsTheCarrierZone : 1 ≤ 1 ∧ 1 ≤ 7 ∧ 7 ≤ 7 ∧ 1 ≤ 1 ∧ 6 < 7 ∧ 6 ≤ 6 := by decide

/-- The planner at its boundary (V7.1 style): 29 bytes take 115 bits at width 4, 28 do not; the frame of at least 5 bits. -/
theorem witness_PlannerFigures :
    planFits 29 115 4 = true ∧ planFits 28 115 4 = false ∧ 1 ≤ 4 ∧ 4 ≤ 7 ∧ 5 ≤ 115 := by decide

/-- At width 1 the exact end of a 6-byte carrier; without a width the first five bits. -/
theorem witness_SpanTestGuardsEveryBit :
    (image 2 1 1).lsbw ≠ 0 ∧ spanFits 5 1 (image 2 1 1) ∧ ¬ spanFits 6 1 (image 2 1 1) ∧
    spanFits 0 5 (image 2 1 0) ∧ ¬ spanFits 0 6 (image 2 1 0) := by decide +kernel

theorem witness_XlateReportsTheCursor :
    let s := image 2 1 0
    Live s ∧ (4 : BitVec 32).toNat ≤ 4 ∧ 5 ≤ (5 : BitVec 32).toNat ∧ s.lsbw = 0 ∧ (image 2 1 7).lsbw ≠ 0 := by
  decide +kernel

/-- For WriteBitsChangesExactlyItsCells and ReadBitsGivesWhatWriteBitsWrote. -/
theorem witness_WriteBits :
    spanFits 2 [true, false, true].length (image 2 1 3) ∧ spanFits 9 [true].length (image 2 1 3) := by decide +kernel

/-- For ZONERD and ZONEWR: byte 3 without a width, the last byte with one; byte 4 without a width; byte N. -/
theorem witness_ZonerdZonewr :
    Live (image 7 5 0) ∧ (image 7 5 0).lsbw = 0 ∧ (3 : BitVec 24).toNat ≤ 3 ∧
    (3 : BitVec 24).toNat < 3 * (image 7 5 0).imgw.toNat * (image 7 5 0).imgh.toNat ∧
    4 ≤ (4 : BitVec 24).toNat ∧ (image 7 5 4).lsbw ≠ 0 ∧
    (104 : BitVec 24).toNat < 3 * (image 7 5 4).imgw.toNat * (image 7 5 4).imgh.toNat ∧
    3 * (image 7 5 4).imgw.toNat * (image 7 5 4).imgh.toNat ≤ (105 : BitVec 24).toNat := by decide +kernel

/-- The cursor statements, reads and writes: the whole of a 6-byte carrier at width 3 (10 bits), one bit more, and the
bits that need a width. -/
theorem witness_Cursor :
    Live (image 2 1 3) ∧ (∃ c : BitVec 6, Instr.fldrd 10 = .fldrd c ∧ c.toNat = 10 ∧ 1 ≤ 10 ∧ 10 ≤ 32) ∧
    (∃ c : BitVec 6, Instr.fldwr 10 = .fldwr c ∧ c.toNat = 10 ∧ 1 ≤ 10 ∧ 10 ≤ 32) ∧
    spanFits (image 2 1 3).bitpos.toNat 10 (image 2 1 3) ∧ spanFits 9 1 (image 2 1 3) ∧
    (image 2 1 3).lsbw ≠ 0 ∧ carLen (image 2 1 3) ≤ (Machine.translate (0 + 11 - 1) (image 2 1 3).lsbw.toNat).1 ∧
    (0 + 5 - 1 ≤ 4 ∧ carLen (image 1 1 0) ≤ (Machine.translate (0 + 5 - 1) (image 1 1 0).lsbw.toNat).1) ∧
    5 ≤ 5 + 1 - 1 ∧ (image 2 1 0).lsbw = 0 :=
  ⟨rfl, ⟨10, rfl, rfl, by decide, by decide⟩, ⟨10, rfl, rfl, by decide, by decide⟩, by decide +kernel⟩

theorem witness_BadCountIsIllegal :
    Live State.reset ∧ (0 : BitVec 6).toNat = 0 ∧ 33 ≤ (33 : BitVec 6).toNat := by decide

theorem witness_HeaderLayout : 7 < 8 ∧ 2047 < 2048 ∧ 0xFFFFFFFF < 2 ^ 32 := by decide

/-- HDRBUILD and CAPCHK: EXTLEN 243 and 244, no width. -/
theorem witness_HdrbuildCapchk :
    Live (image 1 1 7) ∧ (image 1 1 7).lsbw ≠ 0 ∧ (243 : BitVec 8).toNat ≤ 243 ∧ 243 < (244 : BitVec 8).toNat ∧
    (image 1 1 0).lsbw = 0 := by decide +kernel

/-- V6.3: 99 bits need 18 bytes at width 7 and 20 at width 6; the carrier has 18. -/
theorem witness_HdrputWritesTheHeader :
    Live (image 3 2 7) ∧ (image 3 2 7).extlen.toNat ≤ 243 ∧
    bytesexact (headerLen (image 3 2 7)) (image 3 2 7).lsbw.toNat = carLen (image 3 2 7) ∧
    carLen (image 3 2 6) < bytesexact (headerLen (image 3 2 6)) (image 3 2 6).lsbw.toNat := by decide +kernel

/-- A valid header with one extension byte on a carrier it just fits (107 bits, 36·3 = 108 bytes). -/
theorem witness_HdrgetReadsAValidHeader :
    let s := spelling 36 1 (serialize 1 36 1 [0x61] 8)
    Live s ∧ HeaderOk 1 s ∧ frameField 67 32 s = 8 := by decide +kernel

theorem witness_HdrgetChecksTheBootstrap :
    Live (image 0 0 0) ∧ carLen (image 0 0 0) < 2 ∧ 2 ≤ carLen (image 1 1 0) ∧ carLen (image 1 1 0) < 5 ∧
    5 ≤ carLen (image 2 1 0) ∧ readField 0 2 (image 2 1 0) ≠ 3 ∧
    readField 0 2 (spelling 2 1 [true, true]) = 3 ∧ readField 2 3 (spelling 2 1 [true, true]) = 0 := by decide +kernel

/-- A carrier for each of the ten cases of HdrgetChecksWidthAndHeight, in its order: the carrier ends before separator 1,
a wrong separator 1, the carrier ends in the width. -/
theorem witness_HdrgetChecksWidthAndHeight :
    (let s := spelling 2 1 (serialize 1 2 1 [] 0)
     Live s ∧ BootstrapOk s ∧ ¬ DimensionsOk s ∧ ¬ spanFits 5 8 (atFrameWidth s)) ∧
    (let s := imageOf 7 5 0 fun _ => 0xFF
     Live s ∧ BootstrapOk s ∧ ¬ DimensionsOk s ∧ spanFits 5 8 (atFrameWidth s) ∧ frameField 5 8 s = 0xFF) ∧
    (let s := spelling 5 1 (serialize 1 5 1 [] 0)
     Live s ∧ BootstrapOk s ∧ ¬ DimensionsOk s ∧ frameField 5 8 s = 0x78 ∧ ¬ spanFits 13 11 (atFrameWidth s)) := by
  decide +kernel

/-- The next two: the carrier ends before separator 2, a wrong separator 2. -/
theorem witness_HdrgetChecksSeparator2 :
    (let s := spelling 8 1 (serialize 1 8 1 [] 0)
     Live s ∧ BootstrapOk s ∧ ¬ DimensionsOk s ∧ frameField 5 8 s = 0x78 ∧ spanFits 13 11 (atFrameWidth s) ∧
     ¬ spanFits 24 8 (atFrameWidth s)) ∧
    (let s := spelling 20 1 ((serialize 1 20 1 [] 0).take 31 ++ [true])
     Live s ∧ BootstrapOk s ∧ ¬ DimensionsOk s ∧ frameField 5 8 s = 0x78 ∧ spanFits 24 8 (atFrameWidth s) ∧
     frameField 24 8 s = 0xF8) := by decide +kernel

/-- The next two: the carrier ends in the height, and before separator 3. -/
theorem witness_HdrgetChecksHeight :
    (let s := spelling 11 1 (serialize 1 11 1 [] 0)
     Live s ∧ BootstrapOk s ∧ ¬ DimensionsOk s ∧ frameField 24 8 s = 0x78 ∧ ¬ spanFits 32 11 (atFrameWidth s)) ∧
    (let s := spelling 15 1 (serialize 1 15 1 [] 0)
     Live s ∧ BootstrapOk s ∧ ¬ DimensionsOk s ∧ frameField 24 8 s = 0x78 ∧ spanFits 32 11 (atFrameWidth s) ∧
     ¬ spanFits 43 8 (atFrameWidth s)) := by decide +kernel

/-- The last three: a wrong separator 3, another width, another height. -/
theorem witness_HdrgetChecksDimensions :
    (let s := spelling 20 1 ((serialize 1 20 1 [] 0).take 43)
     Live s ∧ BootstrapOk s ∧ ¬ DimensionsOk s ∧ frameField 24 8 s = 0x78 ∧ spanFits 43 8 (atFrameWidth s) ∧
     frameField 43 8 s = 0) ∧
    (let s := spelling 20 1 (serialize 1 21 1 [] 0)
     Live s ∧ BootstrapOk s ∧ ¬ DimensionsOk s ∧ frameField 43 8 s = 0x78 ∧ frameField 13 11 s = 21) ∧
    (let s := spelling 20 1 (serialize 1 20 2 [] 0)
     Live s ∧ BootstrapOk s ∧ ¬ DimensionsOk s ∧ frameField 43 8 s = 0x78 ∧ frameField 13 11 s = 20 ∧
     frameField 32 11 s = 2) := by decide +kernel

/-- HdrgetChecksTheRest: no byte behind bit 50; fileSizeBits cut off. -/
theorem witness_HdrgetChecksTheRest :
    (let s := spelling 17 1 (serialize 1 17 1 [] 0)
     Live s ∧ ExtensionRuns 0 s ∧ ¬ spanFits 51 8 (atFrameWidth s)) ∧
    (let s := spelling 30 1 (serialize 1 30 1 [] 0)
     Live s ∧ ExtensionRuns 0 s ∧ spanFits 51 8 (atFrameWidth s) ∧ frameField 51 8 s = 0x0A ∧
     ¬ spanFits 59 32 (atFrameWidth s)) := by decide +kernel

/-- Separator 4 cut off; separator 4 wrong. -/
theorem witness_HdrgetChecksSeparator4 :
    (let s := spelling 31 1 (serialize 1 31 1 [] 0)
     Live s ∧ ExtensionRuns 0 s ∧ spanFits 51 8 (atFrameWidth s) ∧ frameField 51 8 s = 0x0A ∧
     spanFits 59 32 (atFrameWidth s) ∧ ¬ spanFits 91 8 (atFrameWidth s)) ∧
    (let s := spelling 34 1 ((serialize 1 34 1 [] 0).take 91)
     Live s ∧ ExtensionRuns 0 s ∧ spanFits 51 8 (atFrameWidth s) ∧ frameField 51 8 s = 0x0A ∧
     spanFits 91 8 (atFrameWidth s) ∧ frameField 91 8 s = 0) := by decide +kernel

/-- A 97 × 1 carrier at width 7 whose bytes are all ones behind the dimensions: 244 bytes and no terminator. -/
def longExtension : State :=
  imageOf 97 1 0 fun i => [1, 1, 1, 1, 113, 5, 3, 60, 1, 0, 111].getD i 0xFF

/-- A field whose first bit is 1 is not the terminator. -/
theorem frameField_ne_terminator (k : Nat) (s : State) (h : readBit k (atFrameWidth s) = true) :
    frameField k 8 s ≠ 0x0A := by
  have : frameField k 8 s = (readBit k (atFrameWidth s)).toNat + 2 * fieldval
      (((List.range 7).map fun j => readBit (k + (j + 1)) (atFrameWidth s))) := by
    simp [frameField, readField, readBits, fieldval, List.range_succ_eq_map]
  rw [this, h]
  simp only [Bool.toNat_true]
  omega

theorem longExtension_bits : ∀ j, j < 244 → readBit (51 + 8 * j) (atFrameWidth longExtension) = true := by
  decide +kernel

theorem longExtension_dimensions :
    DimensionsOk longExtension ∧ spanFits 51 (8 * 243) (atFrameWidth longExtension) := by decide +kernel

theorem witness_HdrgetExtensionTooLong :
    Live longExtension ∧ ExtensionRuns 243 longExtension ∧ spanFits 1995 8 (atFrameWidth longExtension) ∧
    frameField 1995 8 longExtension ≠ 0x0A :=
  ⟨rfl, ⟨longExtension_dimensions.1, Nat.le_refl _, .inr longExtension_dimensions.2,
      fun j h => frameField_ne_terminator _ _ (longExtension_bits j (Nat.lt_succ_of_lt h))⟩,
    by decide +kernel, frameField_ne_terminator _ _ (longExtension_bits 243 (by decide))⟩

theorem witness_HdrgetWritesOnlyItsRegisters :
    exec .hdrget (image 7 5 4) = .next (after .hdrget (image 7 5 4)) := rfl

theorem witness_CapchkReportsThePlan :
    Live (inputs 7 5) ∧ (inputs 7 5).lsbw ≠ 0 ∧ (inputs 7 5).extlen.toNat ≤ 243 := by decide +kernel

/-- PAYPUT: no payload; one that just fits; no width; one byte too many; above PAY_CAP. -/
theorem witness_PayputWritesThePayload :
    let s : State := { image 4 1 1 with paylen := 1, bitpos := 4 }
    Live s ∧ s.paylen.toNat ≤ s.payCap.toNat ∧ spanFits 4 8 s ∧ carLen s = 12 ∧
    carLen s ≤ (Machine.translate (5 + 8 - 1) s.lsbw.toNat).1 ∧ s.lsbw ≠ 0 ∧ (image 4 1 0).lsbw = 0 ∧ 5 ≤ 4 + 8 - 1 ∧
    (image 4 1 0).paylen = 0 ∧ State.reset.payCap.toNat < (0x100001 : BitVec 29).toNat := by decide +kernel

/-- PAYGET: the same, and sizes that no payload has. -/
theorem witness_PaygetReadsThePayload :
    let s : State := { image 4 1 1 with filesz := 8, bitpos := 4 }
    Live s ∧ s.filesz.toNat % 8 = 0 ∧ s.filesz.toNat / 8 ≤ s.payCap.toNat ∧ spanFits 4 8 s ∧
    carLen s ≤ (Machine.translate (5 + 8 - 1) s.lsbw.toNat).1 ∧ s.lsbw ≠ 0 ∧
    (12 : BitVec 32).toNat % 8 ≠ 0 ∧ (0x800008 : BitVec 32).toNat % 8 = 0 ∧
    s.payCap.toNat < (0x800008 : BitVec 32).toNat / 8 ∧ (image 4 1 0).filesz.toNat = 0 ∧ (image 4 1 0).lsbw = 0 := by
  decide +kernel

/-- P1; and V7.3, a frame of 99 bits at width 1 on exactly 99 bytes. -/
theorem witness_EmbedWritesTheFrame :
    Live (inputs 7 5) ∧ (inputs 7 5).lsbw ≠ 0 ∧ (inputs 7 5).extlen.toNat ≤ 243 ∧
    (inputs 7 5).paylen.toNat ≤ (inputs 7 5).payCap.toNat ∧
    bytesexact (frameLen (inputs 7 5)) (inputs 7 5).lsbw.toNat ≤ carLen (inputs 7 5) ∧
    bytesexact (frameLen (image 11 3 1)) (image 11 3 1).lsbw.toNat = carLen (image 11 3 1) := by decide +kernel

/-- P5 (2 × 2): the planner's fault; P4 (5 × 2): the exact bound's; V8.3: PAY_CAP 4 and a payload of 5. -/
theorem witness_EmbedFaultsBeforeItWrites :
    Live (inputs 2 2) ∧ carLen (inputs 2 2) * (inputs 2 2).lsbw.toNat < frameLen (inputs 2 2) ∧
    frameLen (inputs 5 2) ≤ carLen (inputs 5 2) * (inputs 5 2).lsbw.toNat ∧
    carLen (inputs 5 2) < bytesexact (frameLen (inputs 5 2)) (inputs 5 2).lsbw.toNat ∧
    (4 : BitVec 29).toNat < (5 : BitVec 29).toNat ∧ (image 7 5 0).lsbw = 0 ∧ 243 < (244 : BitVec 8).toNat := by
  decide +kernel

/-- For EmbedEqualsHdrputThenPayput, ExtractInvertsEmbed and FlippedSeparatorBitIsDetected: P1, and P2's fresh block. -/
theorem witness_ExtractInvertsEmbed :
    let s := inputs 7 5
    let t := after .embed s
    let v : State := { State.reset with imgw := 7, imgh := 5, pix := t.pix }
    exec .embed s = .next t ∧ Live s ∧ Live t ∧ NoTerminator s ∧ Live v ∧ v.pix = t.pix ∧ v.imgw = s.imgw ∧
      v.imgh = s.imgh ∧ v.payCap = s.payCap :=
  ⟨exec_after _ _, by decide +kernel⟩

/-- The first and the last bit of each separator of P1's frame (one extension byte). -/
theorem witness_FlippedSeparatorBitIsDetected :
    ∀ p ∈ [(5, 3), (12, 3), (24, 4), (31, 4), (43, 5), (50, 5), (99, 8), (106, 8)],
      (5 ≤ p.1 ∧ p.1 < 13 ∧ p.2 = 3) ∨ (24 ≤ p.1 ∧ p.1 < 32 ∧ p.2 = 4) ∨ (43 ≤ p.1 ∧ p.1 < 51 ∧ p.2 = 5) ∨
      (91 + 8 * (inputs 7 5).extlen.toNat ≤ p.1 ∧ p.1 < 99 + 8 * (inputs 7 5).extlen.toNat ∧ p.2 = 8) := by
  decide +kernel

/-- P2's block: HDRGET's outcome and a whole valid frame. -/
theorem witness_ExtractRecoversTheFrame :
    let s := { spelling 36 1 (serialize 1 36 1 [] 8 ++ fieldbits 0xA5 8) with payCap := 1 }
    Live s ∧ HeaderOk 0 s ∧ frameField 59 32 s = 8 ∧ 8 / 8 ≤ s.payCap.toNat ∧ spanFits 99 8 (atFrameWidth s) := by
  decide +kernel

/-- V6.10: the newline is the second of three extension bytes; the decoding block is a fresh one. -/
theorem witness_TerminatorInExtensionEndsItEarly :
    let s := inputsNewline
    let t := after .embed s
    let v : State := { State.reset with imgw := 9, imgh := 9, pix := t.pix }
    exec .embed s = .next t ∧ Live s ∧ Live t ∧ 1 < s.extlen.toNat ∧ extRead 1 s = 0x0A ∧
      (∀ i, i < 1 → extRead i s ≠ 0x0A) ∧ Live v ∧ v.pix = t.pix ∧ v.imgw = s.imgw ∧ v.imgh = s.imgh :=
  ⟨exec_after _ _, by decide +kernel⟩

/-- For the rules over all commands: a HDRGET that faults and an EMBED that does not. -/
theorem witness_over_all_commands :
    Live (image 2 1 4) ∧ exec .hdrget (image 2 1 4) = .next (after .hdrget (image 2 1 4)) ∧
    ¬ Live (after .hdrget (image 2 1 4)) ∧ exec .embed (inputs 7 5) = .next (after .embed (inputs 7 5)) :=
  ⟨rfl, rfl, by decide +kernel, rfl⟩

/-- The bits of byte 4 of P1's carrier at and above its zone (width 4), and a PIX cell outside the 7 × 5 image. -/
theorem witness_CarrierZoneIsNeverTouched :
    4 < carLen (inputs 7 5) ∧ ew 4 (inputs 7 5).lsbw.toNat ≤ 4 ∧
    (∀ b, b < carLen (inputs 7 5) → pixKey 7 0 0 ≠ carKey (inputs 7 5).imgw.toNat b) := by decide +kernel

theorem witness_EveryStepKeepsTheInvariant :
    Inv (taking (Asm.cmd .embed) (inputs 7 5)) ∧
    step (taking (Asm.cmd .embed) (inputs 7 5)) = .next (after .embed (inputs 7 5)) :=
  ⟨by decide +kernel, rfl⟩

end Sys2Proof.Tests
end

section
/-! The two statements about the state after reset (spec 10_state.md rule R50): every register reads 0, and the
invariant holds. -/

open Sys2Proof Sys2Proof.Machine

namespace Sys2Proof.Machine

/-- Every byte of the extension buffer is 0 after reset (rule R50). -/
theorem extRead_reset (j : Nat) : extRead j State.reset = 0 := by
  simp only [extRead, State.reset, Vector.toList_replicate, List.getD_eq_getElem?_getD, List.getElem?_replicate]
  split <;> rfl

theorem readReg_reset (r : Reg) : readReg r State.reset = 0 := by
  cases r with
  | ext j => simp [readReg, extRead_reset]
  | _ => rfl

theorem readIndex_reset (index : BitVec 12) : readIndex index State.reset = 0 := by
  unfold readIndex
  cases regAt index.toNat with
  | none => rfl
  | some r => exact readReg_reset r

end Sys2Proof.Machine

/-- Settles O10: reset leaves every register 0 and lists no cell of PIX or PAY. -/
theorem resetStateReadsZero : Obligations.ResetStateReadsZero :=
  ⟨rfl, readIndex_reset, fun _ => rfl, fun _ => rfl⟩

/-- Settles O59: nothing is listed, no fault is recorded and every figure is 0. -/
theorem invariantHoldsAtReset : Obligations.InvariantHoldsAtReset :=
  ⟨rfl, rfl, rfl, rfl, rfl, fun _ => rfl, by decide, .inl rfl, rfl⟩

end

section
/-! What a command's run can do, said once: `Ends` is the rule for runs (a post-condition for reaching the last line and
one for every raise), `bodyOf` the run of each command, and `bodyOf_ends` the one lemma over all commands: every run
keeps what the command's rows do not name, and the sound data of the invariant, and raises only faults that agree with
PHASE (spec 10_state.md rules R21, R30, R32, 20_memory.md rule R70, 60_exceptions.md rules R300 to R310). -/

namespace Sys2Proof.Machine

/-! ### Runs -/

/-- A run that reaches its end does so with a value that meets `ok`; a raise of a code with a sub-cause happens only in a
state that meets `stop`. -/
inductive Ends {α : Type} (ok : α → Prop) (stop : FaultCode → Nat → State → Prop) : Run α → Prop
  | done {a : α} (h : ok a) : Ends ok stop (.ok a)
  | raised {c : FaultCode} {sub info : Nat} {u : State} (h : stop c sub u) : Ends ok stop (.error (raise c sub info u))

section
variable {α β : Type} {ok : α → Prop} {ok' : β → Prop} {stop stop' : FaultCode → Nat → State → Prop}

theorem Ends.bind {x : Run α} {f : α → Run β} (hx : Ends ok stop x) (hf : ∀ a, ok a → Ends ok' stop (f a)) :
    Ends ok' stop (x >>= f) := by
  cases hx with
  | done h => exact hf _ h
  | raised h => exact .raised h

theorem Ends.mono {ok' : α → Prop} {x : Run α} (hx : Ends ok stop x) (hok : ∀ a, ok a → ok' a)
    (hstop : ∀ c sub u, stop c sub u → stop' c sub u) : Ends ok' stop' x := by
  cases hx with
  | done h => exact .done (hok _ h)
  | raised h => exact .raised (hstop _ _ _ h)

theorem ends_require {p : Prop} [Decidable p] {c : FaultCode} {sub : Nat} (info : Nat) {s : State}
    (h : ¬ p → stop c sub s) : Ends (fun _ => p) stop (require p c sub info s) := by
  by_cases hp : p
  · rw [require_of hp]; exact .done hp
  · rw [require_of_not hp]; exact .raised (h hp)

theorem ends_checkSpan_write {k n : Nat} {s : State} (hwidth : 5 ≤ k + n - 1 → s.lsbw = 0 → stop .paramError 1 s)
    (hover : stop .carrierOverrun 0 s) : Ends (fun _ => spanFits k n s) stop (checkSpan k n .write s) := by
  rcases checkSpan_cases k n .write s with ⟨hfits, h⟩ | ⟨hk, hw, h⟩ | ⟨-, -, h⟩
  · rw [h]; exact .done hfits
  · rw [h]; exact .raised (hwidth hk hw)
  · rw [h]; exact .raised hover

theorem ends_checkSpan_read {k n : Nat} {s : State} (hwidth : 5 ≤ k + n - 1 → s.lsbw = 0 → stop .paramError 1 s)
    (hcut : stop .truncated s.phase.code s) : Ends (fun _ => spanFits k n s) stop (checkSpan k n .read s) := by
  rcases checkSpan_cases k n .read s with ⟨hfits, h⟩ | ⟨hk, hw, h⟩ | ⟨-, -, h⟩
  · rw [h]; exact .done hfits
  · rw [h]; exact .raised (hwidth hk hw)
  · rw [h]; exact .raised hcut

theorem ends_getField {k n : Nat} {s : State} (hwidth : 5 ≤ k + n - 1 → s.lsbw = 0 → stop .paramError 1 s)
    (hcut : stop .truncated s.phase.code s) : Ends (fun v => v = readField k n s) stop (getField k n s) :=
  (ends_checkSpan_read hwidth hcut).bind fun _ _ => .done rfl

theorem ends_buildHeader {s : State} (h1 : stop .paramError 1 s) (h2 : stop .paramError 2 s) :
    Ends (fun t => t = builtHeader s ∧ s.extlen.toNat ≤ 243) stop (buildHeader s) := by
  rcases buildHeader_cases s with ⟨-, he, h⟩ | ⟨-, h⟩ | ⟨-, -, h⟩
  · rw [h]; exact .done ⟨rfl, he⟩
  · rw [h]; exact .raised h1
  · rw [h]; exact .raised h2

end

/-! ### The phases at rest and the faults raised there (rule R32) -/

/-- PHASE between commands while no fault is recorded. -/
abbrev AtRest (p : Phase) : Prop := p = .idle ∨ p = .hdrDone ∨ p = .done

theorem faultShape_noFault {sub : Nat} {p : Phase} : faultShape .noFault sub p = true ↔ sub = 0 ∧ AtRest p := by
  simp [faultShape, or_assoc]

/-- The three phases at rest list the same faults, but for the sub-cause of Truncated, which is PHASE itself. -/
theorem faultShape_atRest {c : FaultCode} {p : Phase} (sub : Nat) (hp : AtRest p) (hc : c ≠ .truncated) :
    faultShape c sub p = faultShape c sub .idle := by
  cases c with
  | truncated => exact absurd rfl hc
  | _ => rcases hp with rfl | rfl | rfl <;> rfl

theorem faultShape_truncated (p : Phase) : faultShape .truncated (p.code % 16) p = true := by cases p <;> rfl

/-! ### The sound data of the invariant -/

/-- The part of the invariant that does not speak of the fault record. -/
def Sound (s : State) : Prop :=
  Memory.wf s.pix = true ∧ Memory.below Config.pixCells s.pix = true ∧
  Memory.wf s.pay = true ∧ Memory.below s.payCap.toNat s.pay = true ∧
  s.xbit.toNat ≤ 6 ∧ headerSizeOk s ∧ s.defpix.toNat = s.defbytes.toNat / 3

theorem inv_iff {s : State} :
    Inv s ↔ Sound s ∧ faultShape s.fault s.subcause.toNat s.phase = true ∧ (s.fault = .noFault → s.finfo = 0) := by
  simp only [Inv, Sound]; tauto

theorem Sound.setPixByte {s : State} {a : Nat} (v : Byte) (ha : a < Config.pixCells) (h : Sound s) :
    Sound (setPixByte a v s) := by
  obtain ⟨hwf, hbelow, hrest⟩ := h
  exact ⟨Memory.wf_write a v hwf, Memory.below_write v ha hbelow, hrest⟩

theorem Sound.carWrite {s : State} {i : Nat} (v : Byte) (hi : i < carLen s) (h : Sound s) : Sound (carWrite i v s) :=
  h.setPixByte v (carKey_lt_pixCells (Nat.le_of_lt_succ s.imgw.isLt) (Nat.le_of_lt_succ s.imgh.isLt) hi)

theorem Sound.payWrite {s : State} {j : Nat} (v : Byte) (hj : j < s.payCap.toNat) (h : Sound s) :
    Sound (payWrite j v s) := by
  obtain ⟨hpwf, hpbelow, hwf, hbelow, hrest⟩ := h
  exact ⟨hpwf, hpbelow, Memory.wf_write j v hwf, Memory.below_write v hj hbelow, hrest⟩

theorem translate_fst_mono {k l : Nat} (w : Nat) (h : k ≤ l) : (translate k w).1 ≤ (translate l w).1 := by
  have hdiv : (k - 4) / w ≤ (l - 4) / w := Nat.div_le_div_right (by omega)
  unfold translate
  generalize (k - 4) / w = a, (l - 4) / w = b at hdiv
  split_ifs <;> dsimp only <;> omega

/-- A span inside the carrier has every one of its bits there. -/
theorem spanFits_bit {k n j : Nat} {s : State} (h : spanFits k n s) (hj : j < n) :
    (translate (k + j) s.lsbw.toNat).1 < carLen s :=
  Nat.lt_of_le_of_lt (translate_fst_mono _ (by omega)) h.2

theorem Sound.writeBits {s : State} {k : Nat} {l : Bits}
    (hl : ∀ j, j < l.length → (translate (k + j) s.lsbw.toNat).1 < carLen s) (h : Sound s) : Sound (writeBits k l s) := by
  induction l generalizing k s with
  | nil => exact h
  | cons b l ih =>
    refine ih (s := writeBit k b s) (fun j hj => ?_) (h.carWrite _ (hl 0 (Nat.succ_pos _)))
    have := hl (j + 1) (Nat.succ_lt_succ hj)
    rwa [Nat.add_comm j, ← Nat.add_assoc] at this

theorem Sound.loadPayload {s : State} {n j : Nat} (k : Nat) (hn : j + n ≤ s.payCap.toNat) (h : Sound s) :
    Sound (loadPayload n j k s) := by
  induction n generalizing j k s with
  | zero => exact h
  | succ n ih => exact ih _ (by simp only [payWrite_payCap]; omega) (h.payWrite _ (by omega))

/-- BuildHeader's HDRSZ does not wrap (rule R122). -/
theorem builtHeader_hdrsz_toNat {s : State} (h : s.extlen.toNat ≤ 243) :
    (builtHeader s).hdrsz.toNat = 99 + 8 * s.extlen.toNat := by
  simp only [builtHeader_hdrsz, BitVec.toNat_ofNat]
  omega

/-- BuildHeader's FILESZ does not wrap (rule R220). -/
theorem builtHeader_filesz_toNat (s : State) : (builtHeader s).filesz.toNat = 8 * s.paylen.toNat := by
  have := s.paylen.isLt
  simp only [builtHeader_filesz, BitVec.toNat_ofNat]
  omega

theorem headerSizeOk_of_toNat {s : State} {n : Nat} (hn : n ≤ 243) (h : s.hdrsz.toNat = 99 + 8 * n) :
    headerSizeOk s := by
  refine .inr ⟨?_, ?_, ?_⟩ <;> omega

theorem Sound.builtHeader {s : State} (he : s.extlen.toNat ≤ 243) (h : Sound s) : Sound (builtHeader s) := by
  obtain ⟨hpwf, hpbelow, hwf, hbelow, hxbit, -, hdef⟩ := h
  exact ⟨hpwf, hpbelow, hwf, hbelow, hxbit, headerSizeOk_of_toNat he (builtHeader_hdrsz_toNat he), hdef⟩

theorem carLen_le (s : State) : carLen s ≤ 3 * 2047 * 2047 :=
  Nat.mul_le_mul (Nat.mul_le_mul_left 3 (Nat.le_of_lt_succ s.imgw.isLt)) (Nat.le_of_lt_succ s.imgh.isLt)

theorem frameBits_lt (s : State) : frameBits s < 2 ^ 32 + 2 ^ 11 := by
  have := s.hdrsz.isLt
  have := s.filesz.isLt
  simp only [frameBits]
  omega

/-- The planner's byte deficit fits DEFBYTES (rule R260). -/
theorem planDefBytes_lt (s : State) : planDefBytes (carLen s) (frameBits s) s.lsbw.toNat < 2 ^ 33 := by
  have hneed : (frameBits s + s.lsbw.toNat - 1) / s.lsbw.toNat ≤ frameBits s + s.lsbw.toNat - 1 := Nat.div_le_self _ _
  have := carLen_le s
  have := frameBits_lt s
  have := s.lsbw.isLt
  simp only [planDefBytes, absDiff, planNeed, ceilDiv]
  generalize (frameBits s + s.lsbw.toNat - 1) / s.lsbw.toNat = need at hneed
  omega

theorem Sound.plan {s : State} (h : Sound s) : Sound (plan (frameBits s) s) := by
  obtain ⟨hpwf, hpbelow, hwf, hbelow, hxbit, hhdr, -⟩ := h
  refine ⟨hpwf, hpbelow, hwf, hbelow, hxbit, hhdr, ?_⟩
  have := planDefBytes_lt s
  simp only [plan_defpix, plan_defbytes, BitVec.toNat_ofNat, planDefPix]
  omega

/-! ### What a command leaves alone -/

/-- The state with every field a command may write blanked out, the fault record apart: two states that agree under it
differ only where the command's rows allow (10_state.md rules R21, R30, 20_memory.md rule R70). RESET's row is not
represented: it names every register. -/
def unwritten (i : Instr) (s : State) : State :=
  { s with
    phase := if writesPhase i then .idle else s.phase
    fits := if writesPlanner i then false else s.fits
    xvalid := if writesLocation i then false else s.xvalid
    lsbw := if writesFrameInputs i then 0 else s.lsbw
    bitpos := if writesBitpos i then 0 else s.bitpos
    idx := if i = .unflat then 0 else s.idx
    data := if writesData i then 0 else s.data
    paylen := if writesPaylen i then 0 else s.paylen
    extlen := if writesFrameInputs i then 0 else s.extlen
    hcode := if writesHeader i then 0 else s.hcode
    hwidth := if writesHeader i then 0 else s.hwidth
    hheight := if writesHeader i then 0 else s.hheight
    filesz := if writesHeader i then 0 else s.filesz
    hdrsz := if writesHeader i then 0 else s.hdrsz
    xbyte := if i = .xlate then 0 else s.xbyte
    xbit := if i = .xlate then 0 else s.xbit
    xpix := if writesLocation i then 0 else s.xpix
    xx := if writesLocation i then 0 else s.xx
    xy := if writesLocation i then 0 else s.xy
    xch := if writesLocation i then 0 else s.xch
    capneed := if writesPlanner i then 0 else s.capneed
    defbits := if writesPlanner i then 0 else s.defbits
    defbytes := if writesPlanner i then 0 else s.defbytes
    defpix := if writesPlanner i then 0 else s.defpix
    ext := if writesFrameInputs i then Vector.replicate 243 0 else s.ext
    pix := if writesPix i then [] else s.pix
    pay := if writesPay i then [] else s.pay }

/-- A state command i can be in on its way from s: what its rows do not name is as in s, and the data are sound. -/
structure Kept (i : Instr) (s u : State) : Prop where
  frame : unwritten i u = unwritten i s
  sound : Sound s → Sound u

/-- What command i leaves when it reaches its last line. -/
structure Finished (i : Instr) (s t : State) : Prop extends Kept i s t where
  rest : AtRest s.phase → AtRest t.phase

/-- A raise of this code and sub-cause may end command i in the state u. -/
structure Stopped (i : Instr) (s : State) (c : FaultCode) (sub : Nat) (u : State) : Prop extends Kept i s u where
  code : c ≠ .noFault
  shape : AtRest s.phase → faultShape c (sub % 16) u.phase = true

theorem Kept.refl (i : Instr) (s : State) : Kept i s s := ⟨rfl, id⟩

theorem Kept.finished {i : Instr} {s t : State} (h : Kept i s t) (hp : t.phase = s.phase) : Finished i s t :=
  ⟨h, fun hr => hp ▸ hr⟩

/-- A raise outside the decode sequence: PHASE is as it was, so the fault need only be one of those listed at rest. -/
theorem Kept.stopped {i : Instr} {s u : State} {c : FaultCode} {sub : Nat} (h : Kept i s u) (hp : u.phase = s.phase)
    (hc : c ≠ .noFault ∧ c ≠ .truncated) (hs : faultShape c (sub % 16) .idle = true) : Stopped i s c sub u :=
  ⟨h, hc.1, fun hr => by rwa [hp, faultShape_atRest _ hr hc.2]⟩

theorem Kept.truncated {i : Instr} {s u : State} (h : Kept i s u) : Stopped i s .truncated u.phase.code u :=
  ⟨h, by decide, fun _ => faultShape_truncated _⟩

end Sys2Proof.Machine
end

section
/-! Every command's run, one lemma per unit and `bodyOf_ends` over all of them. -/

namespace Sys2Proof.Machine

/-! ### PCSF and the translator -/

theorem locate_finished {i : Instr} (hi : writesLocation i = true) (b : Nat) (s : State) :
    Finished i s (locate b s) :=
  Kept.finished ⟨by simp only [unwritten, locate, hi, if_true], id⟩ rfl

theorem unflatBody_ends (s : State) : Ends (Finished .unflat s) (Stopped .unflat s) (unflatBody s) :=
  (ends_require _ fun _ => (Kept.refl _ s).stopped rfl (by decide) rfl).bind fun _ _ =>
    .done (Kept.finished ⟨rfl, id⟩ rfl)

theorem carrdBody_ends (s : State) : Ends (Finished .carrd s) (Stopped .carrd s) (carrdBody s) :=
  (ends_require _ fun _ => (Kept.refl _ s).stopped rfl (by decide) rfl).bind fun _ _ =>
    .done (Kept.finished ⟨rfl, id⟩ rfl)

theorem carwrBody_ends (s : State) : Ends (Finished .carwr s) (Stopped .carwr s) (carwrBody s) :=
  (ends_require _ fun _ => (Kept.refl _ s).stopped rfl (by decide) rfl).bind fun _ hi =>
    .done (Kept.finished ⟨rfl, Sound.carWrite _ hi⟩ rfl)

/-- XBIT is a position of a payload zone (rule R190). -/
theorem Sound.xlate {s : State} {k : Nat} (hk : ¬ (needw k ∧ s.lsbw = 0)) (h : Sound s) :
    Sound { s with xbyte := BitVec.ofNat 32 (translate k s.lsbw.toNat).1
                   xbit := BitVec.ofNat 3 (translate k s.lsbw.toNat).2 } := by
  obtain ⟨hpwf, hpbelow, hwf, hbelow, -, hrest⟩ := h
  refine ⟨hpwf, hpbelow, hwf, hbelow, ?_, hrest⟩
  have hw : k ≤ 4 ∨ s.lsbw.toNat ≠ 0 := by
    rw [needw, decide_eq_true_eq, not_and_or] at hk
    exact hk.imp (by omega) fun h0 h1 => h0 (BitVec.eq_of_toNat_eq h1)
  have := translate_snd_le (Nat.le_of_lt_succ s.lsbw.isLt) hw
  simp only [BitVec.toNat_ofNat]
  omega

theorem xlateBody_ends (s : State) : Ends (Finished .xlate s) (Stopped .xlate s) (xlateBody s) :=
  (ends_require _ fun _ => (Kept.refl _ s).stopped rfl (by decide) rfl).bind fun _ hk =>
    .done (Kept.finished ⟨rfl, Sound.xlate hk⟩ rfl)

/-! ### The byte multiplexer and the bit cursor -/

theorem checkZone_ends (i : Instr) (s : State) :
    Ends (fun _ => s.idx.toNat < carLen s) (Stopped i s) (checkZone s) :=
  (ends_require _ fun _ => (Kept.refl _ s).stopped rfl (by decide) rfl).bind fun _ _ =>
    ends_require _ fun _ => (Kept.refl _ s).stopped rfl (by decide) rfl

theorem zonerdBody_ends (s : State) : Ends (Finished .zonerd s) (Stopped .zonerd s) (zonerdBody s) :=
  (checkZone_ends _ s).bind fun _ _ => .done (Kept.finished ⟨rfl, id⟩ rfl)

theorem zonewrBody_ends (s : State) : Ends (Finished .zonewr s) (Stopped .zonewr s) (zonewrBody s) :=
  (checkZone_ends _ s).bind fun _ hi => .done (Kept.finished ⟨rfl, Sound.carWrite _ hi⟩ rfl)

theorem cursorRead_ends {i : Instr} (hd : writesData i = true) (hb : writesBitpos i = true) (n : Nat) (s : State) :
    Ends (Finished i s) (Stopped i s) (cursorRead n s) :=
  (ends_getField (fun _ _ => (Kept.refl i s).stopped rfl (by decide) rfl) (Kept.refl i s).truncated).bind fun _ _ =>
    .done (Kept.finished ⟨by simp only [unwritten, hd, hb, if_true], id⟩ rfl)

/-- A span that passes may be written, and the cursor moved behind it. -/
theorem writeBits_finished {i : Instr} (hp : writesPix i = true) (hb : writesBitpos i = true) {s u : State} {k : Nat}
    {l : Bits} (hl : ∀ j, j < l.length → (translate (k + j) u.lsbw.toNat).1 < carLen u) (b : BitVec 32)
    (h : Finished i s u) : Finished i s { writeBits k l u with bitpos := b } where
  frame := by rw [writeBits_eq, ← h.frame]; simp only [unwritten, hp, hb, if_true]
  sound := fun hs => (h.sound hs).writeBits hl
  rest := by simpa only [writeBits_phase] using h.rest

theorem cursorWrite_ends {i : Instr} (hp : writesPix i = true) (hb : writesBitpos i = true) (n : Nat) (s : State) :
    Ends (Finished i s) (Stopped i s) (cursorWrite n s) :=
  (ends_checkSpan_write (fun _ _ => (Kept.refl i s).stopped rfl (by decide) rfl)
    ((Kept.refl i s).stopped rfl (by decide) rfl)).bind fun _ hfits =>
    .done (writeBits_finished hp hb (fun _ hj => spanFits_bit hfits (by simpa using hj)) _ ((Kept.refl i s).finished rfl))

theorem checkCount_ends (i : Instr) (s : State) : Ends (fun _ => i.wellFormed = true) (Stopped i s) (checkCount i s) :=
  ends_require _ fun _ => (Kept.refl i s).stopped rfl (by decide) rfl

theorem fldrdBody_ends (n : BitVec 6) (s : State) :
    Ends (Finished (.fldrd n) s) (Stopped (.fldrd n) s) (fldrdBody n s) :=
  (checkCount_ends _ s).bind fun _ _ => cursorRead_ends rfl rfl _ s

theorem fldwrBody_ends (n : BitVec 6) (s : State) :
    Ends (Finished (.fldwr n) s) (Stopped (.fldwr n) s) (fldwrBody n s) :=
  (checkCount_ends _ s).bind fun _ _ => cursorWrite_ends rfl rfl _ s

/-! ### Building the header, and the planner -/

theorem builtHeader_finished {i : Instr} (hi : writesHeader i = true) {s : State} (he : s.extlen.toNat ≤ 243) :
    Finished i s (builtHeader s) :=
  Kept.finished ⟨by simp only [unwritten, builtHeader, hi, if_true], Sound.builtHeader he⟩ rfl

theorem buildHeader_ends {i : Instr} (hi : writesHeader i = true) (s : State) :
    Ends (fun t => t = builtHeader s ∧ s.extlen.toNat ≤ 243 ∧ Finished i s t) (Stopped i s) (buildHeader s) :=
  (ends_buildHeader ((Kept.refl i s).stopped rfl (by decide) rfl) ((Kept.refl i s).stopped rfl (by decide) rfl)).mono
    (fun _ ⟨ht, he⟩ => ⟨ht, he, ht ▸ builtHeader_finished hi he⟩) fun _ _ _ h => h

theorem bytebits_length (l : List Byte) : (bytebits l).length = 8 * l.length := by
  simp [bytebits, List.length_flatMap, Nat.mul_comm]

theorem payloadBits_length (s : State) : (payloadBits s).length = 8 * s.paylen.toNat := by
  simp [payloadBits, bytebits_length, payBytes]

theorem headerBits_length {s : State} (he : s.extlen.toNat ≤ 243) :
    (headerBits s).length = 99 + 8 * s.extlen.toNat := by
  simp only [headerBits, serialize, List.length_append, fieldbits_length, bytebits_length, extBytes,
    List.length_take, Vector.length_toList]
  omega

theorem hdrputBody_ends (s : State) : Ends (Finished .hdrput s) (Stopped .hdrput s) (hdrputBody s) := by
  refine (buildHeader_ends rfl s).bind fun _ ⟨ht, he, hfin⟩ => ?_
  subst ht
  refine (ends_checkSpan_write (fun _ _ => hfin.stopped rfl (by decide) rfl) (hfin.stopped rfl (by decide) rfl)).bind
    fun _ hfits => .done (writeBits_finished rfl rfl (fun j hj => spanFits_bit hfits ?_) _ hfin)
  rw [headerBits_length (by exact he)] at hj
  rw [builtHeader_hdrsz_toNat he]
  exact hj

theorem plan_finished {i : Instr} (hi : writesPlanner i = true) {s u : State} (h : Finished i s u) :
    Finished i s (plan (frameBits u) u) where
  frame := by rw [← h.frame]; simp only [unwritten, plan, hi, if_true]
  sound := fun hs => (h.sound hs).plan
  rest := h.rest

theorem capchkBody_ends (s : State) : Ends (Finished .capchk s) (Stopped .capchk s) (capchkBody s) :=
  (buildHeader_ends rfl s).bind fun _ ⟨_, _, hfin⟩ => .done (plan_finished rfl hfin)

theorem embedBody_ends (s : State) : Ends (Finished .embed s) (Stopped .embed s) (embedBody s) := by
  refine (buildHeader_ends rfl s).bind fun _ ⟨ht, he, hfin⟩ => ?_
  subst ht
  refine (ends_require _ fun _ => hfin.stopped rfl (by decide) rfl).bind fun _ _ => ?_
  have hplan := plan_finished (i := .embed) rfl hfin
  refine (ends_require _ fun _ => hplan.stopped rfl (by decide) rfl).bind fun _ _ => ?_
  refine (ends_checkSpan_write (fun _ _ => hplan.stopped rfl (by decide) rfl)
    (hplan.stopped rfl (by decide) rfl)).bind fun _ hfits =>
      .done (writeBits_finished rfl rfl (fun j hj => spanFits_bit hfits ?_) _ hplan)
  have hframe : frameBits (builtHeader s) = 99 + 8 * s.extlen.toNat + 8 * s.paylen.toNat := by
    rw [frameBits, builtHeader_hdrsz_toNat he, builtHeader_filesz_toNat]
  rw [List.length_append, headerBits_length (by exact he), payloadBits_length] at hj
  rw [hframe]
  exact hj

/-! ### The payload -/

theorem payputBody_ends (s : State) : Ends (Finished .payput s) (Stopped .payput s) (payputBody s) := by
  have hfin := (Kept.refl .payput s).finished rfl
  refine (ends_require _ fun _ => hfin.stopped rfl (by decide) rfl).bind fun _ _ => ?_
  dsimp only
  split
  · refine (ends_checkSpan_write (fun _ _ => hfin.stopped rfl (by decide) rfl)
      (hfin.stopped rfl (by decide) rfl)).bind fun _ hfits =>
        .done (writeBits_finished rfl rfl (fun j hj => spanFits_bit hfits ?_) _ hfin)
    rwa [← payloadBits_length]
  · refine .done (writeBits_finished rfl rfl (fun j hj => ?_) _ hfin)
    rw [payloadBits_length] at hj
    omega

theorem paygetBody_ends (s : State) : Ends (Finished .payget s) (Stopped .payget s) (paygetBody s) := by
  have hkept : Kept .payget s { s with phase := .payload } := ⟨rfl, id⟩
  refine (ends_require _ fun _ => ⟨hkept, by decide, fun _ => rfl⟩).bind fun _ _ => ?_
  refine (ends_require _ fun _ => ⟨hkept, by decide, fun _ => rfl⟩).bind fun _ hcap => ?_
  have hdone (k : Nat) (n : BitVec 29) (b : BitVec 32) :
      Finished .payget s { loadPayload (s.filesz.toNat / 8) 0 k { s with phase := .payload } with
        paylen := n, bitpos := b, phase := .done } :=
    { frame := by rw [loadPayload_eq]; rfl
      sound := fun hs => Sound.loadPayload k (by simpa using hcap) (hkept.sound hs)
      rest := fun _ => .inr (.inr rfl) }
  dsimp only
  split
  · exact (ends_checkSpan_read (fun _ _ => ⟨hkept, by decide, fun _ => rfl⟩) hkept.truncated).bind
      fun _ _ => .done (hdone _ _ _)
  · exact .done (hdone _ _ _)

/-! ### FHV, the frame header validator (rule R240) -/

/-- A state of HDRGET in this phase, behind the bootstrap or at it: only HDRGET's registers are written, HDRSZ not yet. -/
structure InHeader (s : State) (ph : Phase) (u : State) : Prop where
  frame : unwritten .hdrget u = unwritten .hdrget s
  hdrsz : u.hdrsz = s.hdrsz
  phase : u.phase = ph

/-- HDRGET writes none of the invariant's data but HDRSZ. -/
theorem Sound.of_hdrget {s u : State} (hf : unwritten .hdrget u = unwritten .hdrget s) (hh : headerSizeOk u)
    (h : Sound s) : Sound u := by
  have hpix : u.pix = s.pix := (congrArg State.pix hf :)
  have hpay : u.pay = s.pay := (congrArg State.pay hf :)
  have hcap : u.payCap = s.payCap := (congrArg State.payCap hf :)
  have hxbit : u.xbit = s.xbit := (congrArg State.xbit hf :)
  have hbytes : u.defbytes = s.defbytes := (congrArg State.defbytes hf :)
  have hdefpix : u.defpix = s.defpix := (congrArg State.defpix hf :)
  obtain ⟨hpwf, hpbelow, hwf, hbelow, hx, -, hdef⟩ := h
  rw [Sound, hpix, hpay, hcap, hxbit, hbytes, hdefpix]
  exact ⟨hpwf, hpbelow, hwf, hbelow, hx, hh, hdef⟩

theorem InHeader.kept {s u : State} {ph : Phase} (h : InHeader s ph u) : Kept .hdrget s u where
  frame := h.frame
  sound := fun hs => .of_hdrget h.frame (by obtain ⟨-, -, -, -, -, hh, -⟩ := hs; rwa [headerSizeOk, h.hdrsz]) hs

theorem InHeader.stopped {s u : State} {ph : Phase} {c : FaultCode} {sub : Nat} (h : InHeader s ph u)
    (hc : c ≠ .noFault) (hs : faultShape c (sub % 16) ph = true) : Stopped .hdrget s c sub u :=
  ⟨h.kept, hc, fun _ => h.phase ▸ hs⟩

/-- A field read by the validator: its span needs no width, or the frame's width is known to be one. -/
theorem InHeader.getField {s u : State} {ph : Phase} {k n : Nat} (h : InHeader s ph u)
    (hw : k + n - 1 ≤ 4 ∨ u.lsbw ≠ 0) :
    Ends (fun v => v = readField k n u) (Stopped .hdrget s) (Machine.getField k n u) :=
  ends_getField (fun hk h0 => hw.elim (fun h4 => absurd hk (by omega)) (absurd h0)) h.kept.truncated

theorem readBootstrap_ends (s : State) :
    Ends (fun t => InHeader s .bootstrap t ∧ t.lsbw ≠ 0) (Stopped .hdrget s) (readBootstrap s) := by
  have h : InHeader s .bootstrap { s with phase := .bootstrap } := ⟨rfl, rfl, rfl⟩
  refine (h.getField (.inl (by decide))).bind fun c _ => ?_
  refine (h.getField (.inl (by decide))).bind fun l hl => ?_
  have h' : InHeader s .bootstrap
      { s with phase := .bootstrap, hcode := BitVec.ofNat 2 c, lsbw := BitVec.ofNat 3 l, bitpos := 5 } := ⟨rfl, rfl, rfl⟩
  refine (ends_require _ fun _ => h'.stopped (by decide) rfl).bind fun _ _ => ?_
  refine (ends_require _ fun _ => h'.stopped (by decide) rfl).bind fun _ hl0 => .done ⟨h', fun h0 => hl0 ?_⟩
  have hlt : l < 2 ^ 3 := hl ▸ readField_lt _ _ _
  have : l % 2 ^ 3 = 0 := (congrArg BitVec.toNat h0 :)
  rwa [Nat.mod_eq_of_lt hlt] at this

theorem readSeparator_ends {s u : State} {ph : Phase} {k sub : Nat} (h : InHeader s ph u) (hw : u.lsbw ≠ 0)
    (hs : faultShape .corruptedHeader (sub % 16) ph = true) :
    Ends (fun t => InHeader s ph t ∧ t.lsbw ≠ 0) (Stopped .hdrget s) (readSeparator k sub u) := by
  refine (h.getField (.inr hw)).bind fun b _ => ?_
  have h' : InHeader s ph { u with bitpos := BitVec.ofNat 32 (k + 8) } := ⟨h.frame, h.hdrsz, h.phase⟩
  exact (ends_require _ fun _ => h'.stopped (by decide) hs).bind fun _ _ => .done ⟨h', hw⟩

theorem readWidthHeight_ends {s u : State} (h : InHeader s .bootstrap u) (hw : u.lsbw ≠ 0) :
    Ends (fun t => InHeader s .widthHeight t ∧ t.lsbw ≠ 0) (Stopped .hdrget s) (readWidthHeight u) := by
  have h : InHeader s .widthHeight { u with phase := .widthHeight } := ⟨h.frame, h.hdrsz, rfl⟩
  refine (readSeparator_ends h hw rfl).bind fun u1 ⟨h1, hw1⟩ => ?_
  refine (h1.getField (.inr hw1)).bind fun v _ => ?_
  have h2 : InHeader s .widthHeight { u1 with hwidth := BitVec.ofNat 11 v, bitpos := 24 } :=
    ⟨h1.frame, h1.hdrsz, h1.phase⟩
  refine (readSeparator_ends h2 hw1 rfl).bind fun u3 ⟨h3, hw3⟩ => ?_
  refine (h3.getField (.inr hw3)).bind fun v _ => ?_
  have h4 : InHeader s .widthHeight { u3 with hheight := BitVec.ofNat 11 v, bitpos := 43 } :=
    ⟨h3.frame, h3.hdrsz, h3.phase⟩
  refine (readSeparator_ends h4 hw3 rfl).bind fun u5 ⟨h5, hw5⟩ => ?_
  refine (ends_require _ fun _ => h5.stopped (by decide) rfl).bind fun _ _ => ?_
  exact (ends_require _ fun _ => h5.stopped (by decide) rfl).bind fun _ _ => .done ⟨h5, hw5⟩

/-- The scan ends behind the terminator, a whole number of bytes on, and no more than there is room for. -/
theorem scanExtension_ends {s u : State} (room k : Nat) (h : InHeader s .extension u) (hw : u.lsbw ≠ 0) :
    Ends (fun p => InHeader s .extension p.2 ∧ p.2.lsbw ≠ 0 ∧ ∃ n, n ≤ room ∧ p.1 = k + 8 + 8 * n) (Stopped .hdrget s)
      (scanExtension room k u) := by
  induction room generalizing k u with
  | zero =>
    refine (h.getField (.inr hw)).bind fun b _ => ?_
    have h' : InHeader s .extension { u with bitpos := BitVec.ofNat 32 (k + 8) } := ⟨h.frame, h.hdrsz, h.phase⟩
    exact (ends_require _ fun _ => h'.stopped (by decide) rfl).bind fun _ _ => .done ⟨h', hw, 0, by simp⟩
  | succ room ih =>
    refine (h.getField (.inr hw)).bind fun b _ => ?_
    have h' : InHeader s .extension { u with bitpos := BitVec.ofNat 32 (k + 8) } := ⟨h.frame, h.hdrsz, h.phase⟩
    dsimp only
    split
    · exact .done ⟨h', hw, 0, by simp⟩
    · have h'' : InHeader s .extension
          { extWrite u.extlen.toNat (BitVec.ofNat 8 b) { u with bitpos := BitVec.ofNat 32 (k + 8) } with
            extlen := u.extlen + 1 } := ⟨h.frame, h.hdrsz, h.phase⟩
      exact (ih (k + 8) h'' hw).mono
        (fun p ⟨hin, hwp, n, hn, hk⟩ => ⟨hin, hwp, n + 1, by omega, by omega⟩) fun _ _ _ h => h

theorem readFileSize_ends {s u : State} {n : Nat} (hn : n ≤ 243) (h : InHeader s .extension u) (hw : u.lsbw ≠ 0) :
    Ends (Finished .hdrget s) (Stopped .hdrget s) (readFileSize (59 + 8 * n) u) := by
  have h : InHeader s .fileSize { u with phase := .fileSize } := ⟨h.frame, h.hdrsz, rfl⟩
  refine (h.getField (.inr hw)).bind fun v _ => ?_
  have h' : InHeader s .fileSize
      { u with phase := .fileSize, filesz := BitVec.ofNat 32 v, bitpos := BitVec.ofNat 32 (59 + 8 * n + 32) } :=
    ⟨h.frame, h.hdrsz, rfl⟩
  refine (readSeparator_ends h' hw rfl).bind fun t ⟨ht, _⟩ => .done ⟨⟨ht.frame, ?_⟩, fun _ => .inr (.inl rfl)⟩
  refine Sound.of_hdrget ht.frame (headerSizeOk_of_toNat hn ?_)
  simp only [BitVec.toNat_ofNat]
  omega

theorem hdrgetBody_ends (s : State) : Ends (Finished .hdrget s) (Stopped .hdrget s) (hdrgetBody s) := by
  refine (readBootstrap_ends s).bind fun u1 ⟨h1, hw1⟩ => ?_
  refine (readWidthHeight_ends h1 hw1).bind fun u2 ⟨h2, hw2⟩ => ?_
  have h2 : InHeader s .extension { u2 with phase := .extension, extlen := 0 } := ⟨h2.frame, h2.hdrsz, rfl⟩
  refine (scanExtension_ends Config.extMax 51 h2 hw2).bind fun ⟨k, u3⟩ ⟨h3, hw3, n, hn, hk⟩ => ?_
  subst hk
  exact readFileSize_ends hn h3 hw3

/-! ### All commands -/

/-- EXTRACT may write what HDRGET and what PAYGET may (rule R285). -/
theorem extract_frame {s t : State}
    (h : unwritten .hdrget t = unwritten .hdrget s ∨ unwritten .payget t = unwritten .payget s) :
    unwritten .extract t = unwritten .extract s :=
  h.elim (congrArg (unwritten .extract)) (congrArg (unwritten .extract))

theorem extractBody_ends (s : State) : Ends (Finished .extract s) (Stopped .extract s) (extractBody s) := by
  refine ((hdrgetBody_ends s).mono (fun _ h => h) fun c sub u h =>
    (⟨⟨extract_frame (.inl h.frame), h.sound⟩, h.code, h.shape⟩ : Stopped .extract s c sub u)).bind fun u hu => ?_
  have hframe : unwritten .extract u = unwritten .extract s := extract_frame (.inl hu.frame)
  refine (paygetBody_ends u).mono (fun t ht => ?_) fun c sub v hv => ?_
  · exact ⟨⟨(extract_frame (.inr ht.frame)).trans hframe, ht.sound ∘ hu.sound⟩, ht.rest ∘ hu.rest⟩
  · exact ⟨⟨(extract_frame (.inr hv.frame)).trans hframe, hv.sound ∘ hu.sound⟩, hv.code, hv.shape ∘ hu.rest⟩

/-- The pseudocode of a command, as `exec` gives it to `command`; RESET, which has no test of FAULT, apart. -/
def bodyOf : Instr → State → Run State
  | .nop | .reset => .ok
  | .flat => fun s => .ok (locate s.idx.toNat s)
  | .unflat => unflatBody
  | .carrd => carrdBody
  | .carwr => carwrBody
  | .xlate => xlateBody
  | .zonerd => zonerdBody
  | .zonewr => zonewrBody
  | .bitrd => cursorRead 1
  | .bitwr => cursorWrite 1
  | .fldrd n => fldrdBody n
  | .fldwr n => fldwrBody n
  | .hdrbuild => buildHeader
  | .hdrput => hdrputBody
  | .hdrget => hdrgetBody
  | .capchk => capchkBody
  | .payput => payputBody
  | .payget => paygetBody
  | .embed => embedBody
  | .extract => extractBody

theorem exec_eq_command {i : Instr} (hi : i ≠ .reset) (s : State) : exec i s = command (bodyOf i) s := by
  cases i with
  | reset => exact absurd rfl hi
  | _ => rfl

theorem exec_reset (s : State) : exec .reset s = .next (resetRegs s) := rfl

/-- Every run of every command keeps what its rows do not name and the sound data, and raises only listed faults. -/
theorem bodyOf_ends (i : Instr) (s : State) : Ends (Finished i s) (Stopped i s) (bodyOf i s) := by
  cases i with
  | nop => exact .done ((Kept.refl _ s).finished rfl)
  | reset => exact .done ((Kept.refl _ s).finished rfl)
  | flat => exact .done (locate_finished rfl _ s)
  | unflat => exact unflatBody_ends s
  | carrd => exact carrdBody_ends s
  | carwr => exact carwrBody_ends s
  | xlate => exact xlateBody_ends s
  | zonerd => exact zonerdBody_ends s
  | zonewr => exact zonewrBody_ends s
  | bitrd => exact cursorRead_ends rfl rfl 1 s
  | bitwr => exact cursorWrite_ends rfl rfl 1 s
  | fldrd n => exact fldrdBody_ends n s
  | fldwr n => exact fldwrBody_ends n s
  | hdrbuild => exact (buildHeader_ends rfl s).mono (fun _ ⟨_, _, h⟩ => h) fun _ _ _ h => h
  | hdrput => exact hdrputBody_ends s
  | hdrget => exact hdrgetBody_ends s
  | capchk => exact capchkBody_ends s
  | payput => exact payputBody_ends s
  | payget => exact paygetBody_ends s
  | embed => exact embedBody_ends s
  | extract => exact extractBody_ends s

/-- Everything a command other than RESET can do: nothing while a fault is recorded; else reach its last line, or end in
a raise. -/
theorem exec_cases {i : Instr} {s t : State} (hi : i ≠ .reset) (h : exec i s = .next t) :
    t = s ∨ (Live s ∧ Finished i s t) ∨
      (Live s ∧ ∃ c sub info u, Stopped i s c sub u ∧ t = raise c sub info u) := by
  rw [exec_eq_command hi] at h
  by_cases hlive : Live s
  · rw [command_live hlive] at h
    generalize hr : bodyOf i s = r at h
    cases hr ▸ bodyOf_ends i s with
    | done hfin => cases h; exact .inr (.inl ⟨hlive, hfin⟩)
    | raised hstop => cases h; exact .inr (.inr ⟨hlive, _, _, _, _, hstop, rfl⟩)
  · rw [command_faulted hlive] at h
    cases h; exact .inl rfl

end Sys2Proof.Machine
end

section
/-! The invariant over every host move, and O60 (spec 60_exceptions.md rules R300 to R310, 70_reset_and_hazards.md
rule R348). -/

open Sys2Proof Sys2Proof.Machine

namespace Sys2Proof.Machine

theorem inv_of_live {t : State} (h : Sound t) (hf : t.fault = .noFault) (hsub : t.subcause = 0) (hinfo : t.finfo = 0)
    (hp : AtRest t.phase) : Inv t :=
  inv_iff.2 ⟨h, by rw [hf, hsub]; exact faultShape_noFault.2 ⟨rfl, hp⟩, fun _ => hinfo⟩

theorem inv_raise {u : State} {c : FaultCode} {sub info : Nat} (h : Sound u) (hc : c ≠ .noFault)
    (hs : faultShape c (sub % 16) u.phase = true) : Inv (raise c sub info u) :=
  inv_iff.2 ⟨h, by simpa using hs, fun h0 => absurd h0 hc⟩

/-- In a live state the invariant says that the fault record is clear and PHASE at rest. -/
theorem Inv.of_live {s : State} (h : Inv s) (hlive : Live s) :
    Sound s ∧ s.subcause = 0 ∧ s.finfo = 0 ∧ AtRest s.phase := by
  obtain ⟨hsound, hshape, hinfo⟩ := inv_iff.1 h
  rw [hlive, faultShape_noFault] at hshape
  exact ⟨hsound, BitVec.eq_of_toNat_eq hshape.1, hinfo hlive, hshape.2⟩

theorem inv_resetRegs {s : State} (h : Inv s) : Inv (resetRegs s) := by
  obtain ⟨⟨hpwf, hpbelow, hwf, hbelow, -⟩, -⟩ := inv_iff.1 h
  exact inv_of_live ⟨hpwf, hpbelow, hwf, hbelow, by simp, .inl rfl, by simp⟩ rfl rfl rfl (.inl rfl)

/-- The fault record is no row of a command's own: only a raise writes it. -/
theorem Kept.faultRecord {i : Instr} {s u : State} (h : Kept i s u) :
    u.fault = s.fault ∧ u.subcause = s.subcause ∧ u.finfo = s.finfo :=
  ⟨(congrArg State.fault h.frame :), (congrArg State.subcause h.frame :), (congrArg State.finfo h.frame :)⟩

theorem exec_keeps_inv {i : Instr} {s t : State} (hs : Inv s) (h : exec i s = .next t) : Inv t := by
  by_cases hi : i = .reset
  · subst hi
    cases h
    exact inv_resetRegs hs
  rcases exec_cases hi h with rfl | ⟨hlive, hfin⟩ | ⟨hlive, c, sub, info, u, hstop, rfl⟩
  · exact hs
  · obtain ⟨hsound, hsub, hinfo, hrest⟩ := hs.of_live hlive
    obtain ⟨hf', hsub', hinfo'⟩ := hfin.faultRecord
    exact inv_of_live (hfin.sound hsound) (hf'.trans hlive) (hsub'.trans hsub) (hinfo'.trans hinfo) (hfin.rest hrest)
  · obtain ⟨hsound, -, -, hrest⟩ := hs.of_live hlive
    exact inv_raise (hstop.sound hsound) hstop.code (hstop.shape hrest)

theorem writeCmd_keeps_inv {data : BitVec 64} {s t : State} (hs : Inv s) (h : writeCmd data s = .next t) : Inv t := by
  unfold writeCmd at h
  split at h
  · exact exec_keeps_inv hs h
  · by_cases hlive : Live s
    · rw [command_live hlive] at h
      cases h
      obtain ⟨hsound, -, -, hrest⟩ := hs.of_live hlive
      exact inv_raise hsound (by decide) (faultShape_atRest _ hrest (by decide))
    · rw [command_faulted hlive] at h
      cases h
      exact hs

/-- No register the host can write is in the invariant. -/
theorem writeReg_keeps_inv {r : Reg} {d : BitVec 64} {s : State} (hs : Inv s) : Inv (writeReg r d s) := by
  cases r <;> exact hs

theorem writeIndex_keeps_inv {index : BitVec 12} {d : BitVec 64} {s : State} (hs : Inv s) :
    Inv (writeIndex index d s) := by
  unfold writeIndex
  split
  · split
    · exact writeReg_keeps_inv hs
    · exact hs
  · exact hs

theorem transact_keeps_inv {m : Transaction} {s t : State} (hs : Inv s) (h : transact m s = .next t) : Inv t := by
  cases m with
  | rd index => cases h; exact hs
  | wr index data =>
    rw [transact] at h
    split at h
    · exact writeCmd_keeps_inv hs h
    · cases h; exact writeIndex_keeps_inv hs

theorem pixKey_lt_pixCells {x y c : Nat} (h : isPixCell x y c = true) : pixKey x y c < Config.pixCells := by
  simp only [isPixCell, decide_eq_true_eq, Config.maxDim] at h
  simp only [pixKey, Config.maxDim, Config.pixCells]
  omega

/-- The host's own accesses name existing cells only, or stop the model (log entry 3). -/
theorem hostMove_keeps_inv {m : HostMove} {s t : State} (hs : Inv s) (h : hostMove m s = .next t) : Inv t := by
  obtain ⟨hsound, hrecord⟩ := inv_iff.1 hs
  cases m with
  | bus m => exact transact_keeps_inv hs h
  | pixRead x y c =>
    rw [hostMove] at h
    split at h
    · cases h; exact hs
    · cases h
  | pixWrite x y c v =>
    rw [hostMove] at h
    split at h
    · cases h; exact inv_iff.2 ⟨hsound.setPixByte v (pixKey_lt_pixCells ‹_›), hrecord⟩
    · cases h
  | payRead j =>
    rw [hostMove] at h
    split at h
    · cases h; exact hs
    · cases h
  | payWrite j v =>
    rw [hostMove] at h
    split at h
    · cases h; exact inv_iff.2 ⟨hsound.payWrite v ‹_›, hrecord⟩
    · cases h
  | hardReset => cases h; exact inv_resetRegs hs

end Sys2Proof.Machine

/-- Settles O60: a step takes one host move, and every host move keeps the invariant; for a command this is
`exec_keeps_inv`, from what its run can do (`bodyOf_ends`). -/
theorem everyStepKeepsTheInvariant : Obligations.EveryStepKeepsTheInvariant := by
  intro s t hs h
  cases hm : s.pending with
  | nil => rw [step_nil hm] at h; cases h; exact hs
  | cons m rest =>
    rw [step_cons hm] at h
    exact hostMove_keeps_inv (s := { s with pending := rest }) hs h

end

section
/-! O57: a command writes only what its rows name (spec 10_state.md rules R21, R30, 20_memory.md rule R70). -/

open Sys2Proof Sys2Proof.Machine

namespace Sys2Proof.Machine

/-- The state with a clear fault record. -/
def clearFault (s : State) : State := raise .noFault 0 0 s

/-- The fault record aside, every command but RESET leaves what its rows do not name. -/
theorem exec_frame {i : Instr} {s t : State} (hi : i ≠ .reset) (h : exec i s = .next t) :
    clearFault (unwritten i t) = clearFault (unwritten i s) := by
  rcases exec_cases hi h with rfl | ⟨-, hfin⟩ | ⟨-, c, sub, info, u, hstop, rfl⟩
  · rfl
  · rw [hfin.frame]
  · exact (congrArg clearFault hstop.frame :)

/-- A command that leaves no fault has not raised one, so it has not written the fault record. -/
theorem exec_faultRecord_of_live {i : Instr} {s t : State} (hi : i ≠ .reset) (h : exec i s = .next t) (hlive : Live t) :
    t.finfo = s.finfo ∧ t.subcause = s.subcause := by
  rcases exec_cases hi h with rfl | ⟨-, hfin⟩ | ⟨-, c, sub, info, u, hstop, rfl⟩
  · exact ⟨rfl, rfl⟩
  · obtain ⟨-, hsub, hinfo⟩ := hfin.faultRecord
    exact ⟨hinfo, hsub⟩
  · exact absurd hlive hstop.code

end Sys2Proof.Machine

/-- Settles O57: RESET's row names every register, and of every other command's effect `exec_frame` says what it leaves;
each clause is one of its fields. -/
theorem commandsWriteOnlyWhatTheirRowsName : Obligations.CommandsWriteOnlyWhatTheirRowsName := by
  intro i s t h
  by_cases hi : i = .reset
  · subst hi
    cases h
    simp [writesBitpos, writesData, writesPaylen, writesFrameInputs, writesHeader, writesLocation, writesPlanner,
      writesPhase]
  have hframe := exec_frame hi h
  simp only [clearFault, raise, unwritten, State.mk.injEq] at hframe
  obtain ⟨-, -, hphase, hfits, hxvalid, -, himgw, himgh, hlsbw, hbitpos, hidx, hdata, hpaylen, hextlen, hhcode, hhwidth,
    hhheight, hfilesz, hhdrsz, hxbyte, hxbit, hxpix, hxx, hxy, hxch, hcapneed, hdefbits, hdefbytes, hdefpix, hext, hpix,
    hpay, hpayCap, hpending, hreturned⟩ := hframe
  refine ⟨fun _ => ⟨himgw, himgh⟩, fun _ hu => by simpa [hu] using hidx, fun _ hx => ?_,
    fun _ hlive => exec_faultRecord_of_live hi h hlive, fun hw => by simpa [hw] using hbitpos,
    fun hw => by simpa [hw] using hdata, fun hw => by simpa [hw] using hpaylen, fun hw => ?_, fun hw => ?_, fun hw => ?_,
    fun hw => ?_, fun hw => by simpa [hw] using hphase, fun hw => by simpa [hw] using hpix,
    fun hw => by simpa [hw] using hpay, hpayCap, hpending, hreturned⟩
  · simpa [hx] using And.intro hxbyte hxbit
  · simpa [hw] using And.intro hlsbw (And.intro hextlen hext)
  · simpa [hw] using And.intro hhcode (And.intro hhwidth (And.intro hhheight (And.intro hfilesz hhdrsz)))
  · simpa [hw] using And.intro hxpix (And.intro hxx (And.intro hxy (And.intro hxch hxvalid)))
  · simpa [hw] using And.intro hcapneed (And.intro hfits (And.intro hdefbytes (And.intro hdefbits hdefpix)))

end

section
/-! O58: FITS and XVALID are reports (spec 10_state.md rule R30). Two runs from states that differ in the two reports
only go through the same tests and end the same way (`AlikeRuns`), so every command does. -/

open Sys2Proof Sys2Proof.Machine

namespace Sys2Proof.Machine

/-- The two states differ in FITS and XVALID at most. -/
def Alike (s s' : State) : Prop := ∃ f x, s' = { s with fits := f, xvalid := x }

/-- Two runs that both reach their end, with values that R relates, or both end in a raise, in states that are alike. -/
inductive AlikeRuns {α : Type} (R : α → α → Prop) : Run α → Run α → Prop
  | done {a a' : α} (h : R a a') : AlikeRuns R (.ok a) (.ok a')
  | raised {s s' : State} (h : Alike s s') : AlikeRuns R (.error s) (.error s')

section
variable {α β : Type} {R : α → α → Prop} {R' : β → β → Prop}

theorem AlikeRuns.bind {x x' : Run α} {f f' : α → Run β} (hx : AlikeRuns R x x')
    (hf : ∀ a a', R a a' → AlikeRuns R' (f a) (f' a')) : AlikeRuns R' (x >>= f) (x' >>= f') := by
  cases hx with
  | done h => exact hf _ _ h
  | raised h => exact .raised h

theorem AlikeRuns.finalState {x x' : Run State} (h : AlikeRuns Alike x x') : Alike (finalState x) (finalState x') := by
  cases h with
  | done h => exact h
  | raised h => exact h

theorem alikeRuns_fail (c : FaultCode) (sub info : Nat) {s s' : State} (h : Alike s s') :
    AlikeRuns R (fail c sub info s) (fail c sub info s') := by
  obtain ⟨f, x, rfl⟩ := h
  exact .raised ⟨f, x, rfl⟩

theorem alikeRuns_require {p : Prop} [Decidable p] (c : FaultCode) (sub info : Nat) {s s' : State} (h : Alike s s') :
    AlikeRuns Eq (require p c sub info s) (require p c sub info s') := by
  unfold require
  split
  · exact .done rfl
  · exact alikeRuns_fail c sub info h

end

/-! ### The shared operations -/

theorem alikeRuns_checkSpan (k n : Nat) (kind : SpanKind) {s s' : State} (h : Alike s s') :
    AlikeRuns Eq (checkSpan k n kind s) (checkSpan k n kind s') := by
  have hfail (c : FaultCode) (sub info : Nat) : AlikeRuns (α := Unit) Eq (fail c sub info s) (fail c sub info s') :=
    alikeRuns_fail c sub info h
  obtain ⟨f, x, rfl⟩ := h
  simp only [checkSpan]
  split
  · exact hfail _ _ _
  · have hlen : carLen { s with fits := f, xvalid := x } = carLen s := rfl
    rw [hlen]
    split
    · cases kind with
      | write => exact hfail _ _ _
      | read => exact hfail _ _ _
    · exact .done rfl

theorem alikeRuns_getField (k n : Nat) {s s' : State} (h : Alike s s') :
    AlikeRuns Eq (getField k n s) (getField k n s') :=
  (alikeRuns_checkSpan k n .read h).bind fun _ _ _ => by
    obtain ⟨f, x, rfl⟩ := h
    exact .done rfl

theorem Alike.writeBits {s s' : State} (h : Alike s s') (k : Nat) (l : Bits) :
    Alike (writeBits k l s) (writeBits k l s') := by
  induction l generalizing k s s' with
  | nil => exact h
  | cons b l ih =>
    obtain ⟨f, x, rfl⟩ := h
    exact ih ⟨f, x, rfl⟩ (k + 1)

theorem Alike.loadPayload {s s' : State} (h : Alike s s') (n j k : Nat) :
    Alike (loadPayload n j k s) (loadPayload n j k s') := by
  induction n generalizing j k s s' with
  | zero => exact h
  | succ n ih =>
    obtain ⟨f, x, rfl⟩ := h
    exact ih ⟨f, x, rfl⟩ (j + 1) (k + 8)

theorem alikeRuns_buildHeader {s s' : State} (h : Alike s s') :
    AlikeRuns Alike (buildHeader s) (buildHeader s') := by
  obtain ⟨f, x, rfl⟩ := h
  exact (alikeRuns_require _ _ _ ⟨f, x, rfl⟩).bind fun _ _ _ =>
    (alikeRuns_require _ _ _ ⟨f, x, rfl⟩).bind fun _ _ _ => .done ⟨f, x, rfl⟩

/-! ### The commands of PCSF, BAT and LBM -/

/-- XVALID is written, not read. -/
theorem Alike.locate {s s' : State} (h : Alike s s') (i : Nat) : Alike (locate i s) (locate i s') := by
  obtain ⟨f, x, rfl⟩ := h
  exact ⟨f, inCarrier i s, rfl⟩

theorem alikeRuns_unflatBody {s s' : State} (h : Alike s s') : AlikeRuns Alike (unflatBody s) (unflatBody s') := by
  obtain ⟨f, x, rfl⟩ := h
  exact (alikeRuns_require _ _ _ ⟨f, x, rfl⟩).bind fun _ _ _ => .done ⟨f, x, rfl⟩

theorem alikeRuns_carrdBody {s s' : State} (h : Alike s s') : AlikeRuns Alike (carrdBody s) (carrdBody s') := by
  obtain ⟨f, x, rfl⟩ := h
  exact (alikeRuns_require _ _ _ ⟨f, x, rfl⟩).bind fun _ _ _ => .done ⟨f, x, rfl⟩

theorem alikeRuns_carwrBody {s s' : State} (h : Alike s s') : AlikeRuns Alike (carwrBody s) (carwrBody s') := by
  obtain ⟨f, x, rfl⟩ := h
  exact (alikeRuns_require _ _ _ ⟨f, x, rfl⟩).bind fun _ _ _ => .done ⟨f, x, rfl⟩

theorem alikeRuns_xlateBody {s s' : State} (h : Alike s s') : AlikeRuns Alike (xlateBody s) (xlateBody s') := by
  obtain ⟨f, x, rfl⟩ := h
  exact (alikeRuns_require _ _ _ ⟨f, x, rfl⟩).bind fun _ _ _ => .done (.locate ⟨f, x, rfl⟩ _)

theorem alikeRuns_checkZone {s s' : State} (h : Alike s s') : AlikeRuns Eq (checkZone s) (checkZone s') := by
  obtain ⟨f, x, rfl⟩ := h
  exact (alikeRuns_require _ _ _ ⟨f, x, rfl⟩).bind fun _ _ _ => alikeRuns_require _ _ _ ⟨f, x, rfl⟩

theorem alikeRuns_zonerdBody {s s' : State} (h : Alike s s') : AlikeRuns Alike (zonerdBody s) (zonerdBody s') :=
  (alikeRuns_checkZone h).bind fun _ _ _ => by
    obtain ⟨f, x, rfl⟩ := h
    exact .done ⟨f, x, rfl⟩

theorem alikeRuns_zonewrBody {s s' : State} (h : Alike s s') : AlikeRuns Alike (zonewrBody s) (zonewrBody s') :=
  (alikeRuns_checkZone h).bind fun _ _ _ => by
    obtain ⟨f, x, rfl⟩ := h
    exact .done ⟨f, x, rfl⟩

theorem alikeRuns_cursorRead (n : Nat) {s s' : State} (h : Alike s s') :
    AlikeRuns Alike (cursorRead n s) (cursorRead n s') := by
  obtain ⟨f, x, rfl⟩ := h
  refine (alikeRuns_getField _ _ ⟨f, x, rfl⟩).bind fun v v' hv => ?_
  subst hv
  exact .done ⟨f, x, rfl⟩

/-- The cursor may be moved in both. -/
theorem Alike.setBitpos {s s' : State} (h : Alike s s') (b : BitVec 32) :
    Alike { s with bitpos := b } { s' with bitpos := b } := by
  obtain ⟨f, x, rfl⟩ := h
  exact ⟨f, x, rfl⟩

theorem alikeRuns_cursorWrite (n : Nat) {s s' : State} (h : Alike s s') :
    AlikeRuns Alike (cursorWrite n s) (cursorWrite n s') := by
  obtain ⟨f, x, rfl⟩ := h
  exact (alikeRuns_checkSpan _ _ _ ⟨f, x, rfl⟩).bind fun _ _ _ =>
    .done ((Alike.writeBits ⟨f, x, rfl⟩ _ _).setBitpos _)

theorem alikeRuns_fldrdBody (n : BitVec 6) {s s' : State} (h : Alike s s') :
    AlikeRuns Alike (fldrdBody n s) (fldrdBody n s') :=
  (alikeRuns_require _ _ _ h).bind fun _ _ _ => alikeRuns_cursorRead _ h

theorem alikeRuns_fldwrBody (n : BitVec 6) {s s' : State} (h : Alike s s') :
    AlikeRuns Alike (fldwrBody n s) (fldwrBody n s') :=
  (alikeRuns_require _ _ _ h).bind fun _ _ _ => alikeRuns_cursorWrite _ h

/-! ### The commands of the header, the planner and the payload -/

/-- FITS is written, not read. -/
theorem Alike.plan {s s' : State} (h : Alike s s') (t : Nat) : Alike (plan t s) (plan t s') := by
  obtain ⟨f, x, rfl⟩ := h
  exact ⟨planFits (carLen s) t s.lsbw.toNat, x, rfl⟩

theorem alikeRuns_hdrputBody {s s' : State} (h : Alike s s') : AlikeRuns Alike (hdrputBody s) (hdrputBody s') := by
  refine (alikeRuns_buildHeader h).bind fun u u' hu => ?_
  obtain ⟨f, x, rfl⟩ := hu
  exact (alikeRuns_checkSpan _ _ _ ⟨f, x, rfl⟩).bind fun _ _ _ =>
    .done ((Alike.writeBits ⟨f, x, rfl⟩ _ _).setBitpos _)

theorem alikeRuns_capchkBody {s s' : State} (h : Alike s s') : AlikeRuns Alike (capchkBody s) (capchkBody s') := by
  refine (alikeRuns_buildHeader h).bind fun u u' hu => ?_
  obtain ⟨f, x, rfl⟩ := hu
  exact .done (.plan ⟨f, x, rfl⟩ _)

/-- EMBED tests FITS behind the planner, which has just written it. -/
theorem alikeRuns_embedBody {s s' : State} (h : Alike s s') : AlikeRuns Alike (embedBody s) (embedBody s') := by
  refine (alikeRuns_buildHeader h).bind fun u u' hu => ?_
  obtain ⟨f, x, rfl⟩ := hu
  refine (alikeRuns_require _ _ _ ⟨f, x, rfl⟩).bind fun _ _ _ => ?_
  have hplan : Alike (Machine.plan (frameBits u) u) (Machine.plan (frameBits u) { u with fits := f, xvalid := x }) :=
    .plan ⟨f, x, rfl⟩ _
  exact (alikeRuns_require _ _ _ hplan).bind fun _ _ _ => (alikeRuns_checkSpan _ _ _ hplan).bind fun _ _ _ =>
    .done ((hplan.writeBits _ _).setBitpos _)

theorem alikeRuns_payputBody {s s' : State} (h : Alike s s') : AlikeRuns Alike (payputBody s) (payputBody s') := by
  obtain ⟨f, x, rfl⟩ := h
  refine (alikeRuns_require _ _ _ ⟨f, x, rfl⟩).bind fun _ _ _ => ?_
  have hdone (b : BitVec 32) := (Alike.writeBits (s := s) ⟨f, x, rfl⟩ s.bitpos.toNat (payloadBits s)).setBitpos b
  dsimp only
  split
  · exact (alikeRuns_checkSpan _ _ _ ⟨f, x, rfl⟩).bind fun _ _ _ => .done (hdone _)
  · exact .done (hdone _)

theorem alikeRuns_paygetBody {s s' : State} (h : Alike s s') : AlikeRuns Alike (paygetBody s) (paygetBody s') := by
  obtain ⟨f, x, rfl⟩ := h
  have hphase : Alike { s with phase := .payload } { s with phase := .payload, fits := f, xvalid := x } := ⟨f, x, rfl⟩
  refine (alikeRuns_require _ _ _ hphase).bind fun _ _ _ => ?_
  refine (alikeRuns_require _ _ _ hphase).bind fun _ _ _ => ?_
  have hdone (n : BitVec 29) (b : BitVec 32) {t t' : State} (h : Alike t t') :
      Alike { t with paylen := n, bitpos := b, phase := .done } { t' with paylen := n, bitpos := b, phase := .done } := by
    obtain ⟨f, x, rfl⟩ := h
    exact ⟨f, x, rfl⟩
  dsimp only
  split
  · exact (alikeRuns_checkSpan _ _ _ hphase).bind fun _ _ _ => .done (hdone _ _ (hphase.loadPayload _ _ _))
  · exact .done (hdone _ _ (hphase.loadPayload _ _ _))

/-! ### FHV -/

theorem alikeRuns_readBootstrap {s s' : State} (h : Alike s s') :
    AlikeRuns Alike (readBootstrap s) (readBootstrap s') := by
  obtain ⟨f, x, rfl⟩ := h
  refine (alikeRuns_getField _ _ ⟨f, x, rfl⟩).bind fun c c' hc => ?_
  refine (alikeRuns_getField _ _ ⟨f, x, rfl⟩).bind fun l l' hl => ?_
  subst hc hl
  exact (alikeRuns_require _ _ _ ⟨f, x, rfl⟩).bind fun _ _ _ =>
    (alikeRuns_require _ _ _ ⟨f, x, rfl⟩).bind fun _ _ _ => .done ⟨f, x, rfl⟩

theorem alikeRuns_readSeparator (k sub : Nat) {s s' : State} (h : Alike s s') :
    AlikeRuns Alike (readSeparator k sub s) (readSeparator k sub s') := by
  obtain ⟨f, x, rfl⟩ := h
  refine (alikeRuns_getField _ _ ⟨f, x, rfl⟩).bind fun b b' hb => ?_
  subst hb
  exact (alikeRuns_require _ _ _ ⟨f, x, rfl⟩).bind fun _ _ _ => .done ⟨f, x, rfl⟩

theorem alikeRuns_readWidthHeight {s s' : State} (h : Alike s s') :
    AlikeRuns Alike (readWidthHeight s) (readWidthHeight s') := by
  obtain ⟨f, x, rfl⟩ := h
  refine (alikeRuns_readSeparator _ _ ⟨f, x, rfl⟩).bind fun u u' hu => ?_
  obtain ⟨f, x, rfl⟩ := hu
  refine (alikeRuns_getField _ _ ⟨f, x, rfl⟩).bind fun v v' hv => ?_
  subst hv
  refine (alikeRuns_readSeparator _ _ ⟨f, x, rfl⟩).bind fun u u' hu => ?_
  obtain ⟨f, x, rfl⟩ := hu
  refine (alikeRuns_getField _ _ ⟨f, x, rfl⟩).bind fun v v' hv => ?_
  subst hv
  refine (alikeRuns_readSeparator _ _ ⟨f, x, rfl⟩).bind fun u u' hu => ?_
  obtain ⟨f, x, rfl⟩ := hu
  exact (alikeRuns_require _ _ _ ⟨f, x, rfl⟩).bind fun _ _ _ =>
    (alikeRuns_require _ _ _ ⟨f, x, rfl⟩).bind fun _ _ _ => .done ⟨f, x, rfl⟩

theorem alikeRuns_scanExtension (room k : Nat) {s s' : State} (h : Alike s s') :
    AlikeRuns (fun p p' => p.1 = p'.1 ∧ Alike p.2 p'.2) (scanExtension room k s) (scanExtension room k s') := by
  induction room generalizing k s s' with
  | zero =>
    obtain ⟨f, x, rfl⟩ := h
    refine (alikeRuns_getField _ _ ⟨f, x, rfl⟩).bind fun b b' hb => ?_
    subst hb
    exact (alikeRuns_require _ _ _ ⟨f, x, rfl⟩).bind fun _ _ _ => .done ⟨rfl, f, x, rfl⟩
  | succ room ih =>
    obtain ⟨f, x, rfl⟩ := h
    refine (alikeRuns_getField _ _ ⟨f, x, rfl⟩).bind fun b b' hb => ?_
    subst hb
    dsimp only
    split
    · exact .done ⟨rfl, f, x, rfl⟩
    · exact ih _ ⟨f, x, rfl⟩

theorem alikeRuns_readFileSize (k : Nat) {s s' : State} (h : Alike s s') :
    AlikeRuns Alike (readFileSize k s) (readFileSize k s') := by
  obtain ⟨f, x, rfl⟩ := h
  refine (alikeRuns_getField _ _ ⟨f, x, rfl⟩).bind fun v v' hv => ?_
  subst hv
  refine (alikeRuns_readSeparator _ _ ⟨f, x, rfl⟩).bind fun u u' hu => ?_
  obtain ⟨f, x, rfl⟩ := hu
  exact .done ⟨f, x, rfl⟩

theorem alikeRuns_hdrgetBody {s s' : State} (h : Alike s s') : AlikeRuns Alike (hdrgetBody s) (hdrgetBody s') := by
  refine (alikeRuns_readBootstrap h).bind fun _ _ h1 => ?_
  refine (alikeRuns_readWidthHeight h1).bind fun u u' h2 => ?_
  obtain ⟨f, x, rfl⟩ := h2
  refine (alikeRuns_scanExtension _ _ ⟨f, x, rfl⟩).bind fun ⟨k, u⟩ ⟨k', u'⟩ ⟨hk, hu⟩ => ?_
  obtain rfl : k = k' := hk
  exact alikeRuns_readFileSize k hu

theorem alikeRuns_extractBody {s s' : State} (h : Alike s s') : AlikeRuns Alike (extractBody s) (extractBody s') :=
  (alikeRuns_hdrgetBody h).bind fun _ _ hu => alikeRuns_paygetBody hu

/-! ### All commands -/

theorem alikeRuns_bodyOf (i : Instr) {s s' : State} (h : Alike s s') : AlikeRuns Alike (bodyOf i s) (bodyOf i s') := by
  cases i with
  | nop => exact .done h
  | reset => exact .done h
  | flat =>
    obtain ⟨f, x, rfl⟩ := h
    exact .done (.locate ⟨f, x, rfl⟩ _)
  | unflat => exact alikeRuns_unflatBody h
  | carrd => exact alikeRuns_carrdBody h
  | carwr => exact alikeRuns_carwrBody h
  | xlate => exact alikeRuns_xlateBody h
  | zonerd => exact alikeRuns_zonerdBody h
  | zonewr => exact alikeRuns_zonewrBody h
  | bitrd => exact alikeRuns_cursorRead 1 h
  | bitwr => exact alikeRuns_cursorWrite 1 h
  | fldrd n => exact alikeRuns_fldrdBody n h
  | fldwr n => exact alikeRuns_fldwrBody n h
  | hdrbuild => exact alikeRuns_buildHeader h
  | hdrput => exact alikeRuns_hdrputBody h
  | hdrget => exact alikeRuns_hdrgetBody h
  | capchk => exact alikeRuns_capchkBody h
  | payput => exact alikeRuns_payputBody h
  | payget => exact alikeRuns_paygetBody h
  | embed => exact alikeRuns_embedBody h
  | extract => exact alikeRuns_extractBody h

theorem command_alike {body : State → Run State} {s s' : State}
    (hbody : AlikeRuns Alike (body s) (body s')) (h : Alike s s') :
    ∃ t t', command body s = .next t ∧ command body s' = .next t' ∧ Alike t t' := by
  have hlive : Live s' ↔ Live s := by obtain ⟨f, x, rfl⟩ := h; rfl
  by_cases hs : Live s
  · exact ⟨_, _, command_live hs, command_live (hlive.2 hs), hbody.finalState⟩
  · exact ⟨_, _, command_faulted hs, command_faulted (mt hlive.1 hs), h⟩

/-- From states that are alike every command leaves states that are alike. -/
theorem exec_alike (i : Instr) {s s' : State} (h : Alike s s') :
    ∃ t t', exec i s = .next t ∧ exec i s' = .next t' ∧ Alike t t' := by
  by_cases hi : i = .reset
  · subst hi
    obtain ⟨f, x, rfl⟩ := h
    exact ⟨_, _, exec_reset _, exec_reset _, false, false, rfl⟩
  · rw [exec_eq_command hi, exec_eq_command hi]
    exact command_alike (alikeRuns_bodyOf i h) h

end Sys2Proof.Machine

/-- Settles O58: the state with other reports is alike, and commands keep that. -/
theorem reportsDoNotInfluenceCommands : Obligations.ReportsDoNotInfluenceCommands := by
  intro i s t f x h
  obtain ⟨u, t', hu, ht', f', x', rfl⟩ := exec_alike i (⟨f, x, rfl⟩ : Alike s { s with fits := f, xvalid := x })
  cases h.symm.trans hu
  exact ⟨_, ht', rfl⟩

end

section
/-! The flatten map and its inverse (spec 20_memory.md rule R74), and O16. -/

open Sys2Proof Sys2Proof.Machine

namespace Sys2Proof.Machine

theorem width_pos_of_lt {w h i : Nat} (hi : i < 3 * w * h) : 0 < w := by
  rcases Nat.eq_zero_or_pos w with rfl | hw
  · simp at hi
  · exact hw

theorem pixelOf_lt {w h i : Nat} (hi : i < 3 * w * h) : pixelOf i < w * h :=
  Nat.div_lt_of_lt_mul (by rwa [← Nat.mul_assoc])

theorem colOf_lt {w : Nat} (hw : 0 < w) (i : Nat) : colOf w i < w := Nat.mod_lt _ hw

theorem rowOf_lt {w h i : Nat} (hi : i < 3 * w * h) : rowOf w i < h := Nat.div_lt_of_lt_mul (pixelOf_lt hi)

theorem chanOf_le (i : Nat) : chanOf i ≤ 2 := Nat.le_of_lt_succ (Nat.mod_lt i (by decide))

/-- `unflat(flat(i)) = i`: a number is put together again from its quotient and remainder, by w and then by 3. -/
theorem unflat_flat (w i : Nat) : unflat w (colOf w i) (rowOf w i) (chanOf i) = i := by
  have hpixel : rowOf w i * w + colOf w i = pixelOf i := Nat.div_add_mod' _ _
  rw [unflat, hpixel]
  exact Nat.div_add_mod i 3

theorem pixelOf_unflat (w x y : Nat) {c : Nat} (hc : c ≤ 2) : pixelOf (unflat w x y c) = y * w + x := by
  rw [pixelOf, unflat]
  omega

theorem chanOf_unflat (w x y : Nat) {c : Nat} (hc : c ≤ 2) : chanOf (unflat w x y c) = c := by
  rw [chanOf, unflat]
  omega

theorem colOf_unflat {w x c : Nat} (y : Nat) (hx : x < w) (hc : c ≤ 2) : colOf w (unflat w x y c) = x := by
  rw [colOf, pixelOf_unflat w x y hc, Nat.mul_add_mod', Nat.mod_eq_of_lt hx]

theorem rowOf_unflat {w x c : Nat} (y : Nat) (hx : x < w) (hc : c ≤ 2) : rowOf w (unflat w x y c) = y := by
  rw [rowOf, pixelOf_unflat w x y hc, Nat.mul_comm, Nat.mul_add_div (Nat.zero_lt_of_lt hx), Nat.div_eq_of_lt hx,
    Nat.add_zero]

theorem unflat_lt {w h x y c : Nat} (hx : x < w) (hy : y < h) (hc : c ≤ 2) : unflat w x y c < 3 * w * h := by
  have hpixel : y * w + x < w * h :=
    calc y * w + x < y * w + w := Nat.add_lt_add_left hx _
      _ = (y + 1) * w := (Nat.succ_mul y w).symm
      _ ≤ h * w := Nat.mul_le_mul_right w hy
      _ = w * h := Nat.mul_comm h w
  rw [unflat, Nat.mul_assoc]
  omega

end Sys2Proof.Machine

/-- Settles O16: both directions are division with remainder, by the width and by the three channels. -/
theorem flattenMapIsInvertible : Obligations.FlattenMapIsInvertible := by
  refine fun w h => ⟨fun i hi => ?_, fun x y c hx hy hc => ?_⟩
  · exact ⟨rfl, rfl, rfl, rfl, colOf_lt (width_pos_of_lt hi) i, rowOf_lt hi, chanOf_le i, unflat_flat w i⟩
  · exact ⟨rfl, unflat_lt hx hy hc, colOf_unflat y hx hc, rowOf_unflat y hx hc, chanOf_unflat w x y hc⟩

end

section
/-! O56: what a command may do to PIX (spec 20_memory.md rules R80 to R82, 42_translator_mux.md rules R182, R184). A
command other than CARWR changes only payload zone bits of carrier bytes (`ZonesOnly`); CARWR, only carrier bytes. -/

open Sys2Proof Sys2Proof.Machine

namespace Sys2Proof.Machine

/-! ### LBM, bit by bit (rule R184) -/

theorem maskByte_getLsbD (e p : Nat) : (maskByte e).getLsbD p = (decide (p < 8) && decide (p < e)) := by
  simp [maskByte, BitVec.getLsbD_ofNat, Nat.testBit_two_pow_sub_one]

theorem zoneins_getLsbD (orig d : Byte) (e p : Nat) :
    (zoneins orig d e).getLsbD p = if p < e then d.getLsbD p else orig.getLsbD p := by
  simp only [zoneins, BitVec.getLsbD_or, BitVec.getLsbD_and, BitVec.getLsbD_not, maskByte_getLsbD]
  by_cases hp : p < 8
  · by_cases he : p < e <;> simp [hp, he]
  · simp [BitVec.getLsbD_of_ge _ p (Nat.le_of_not_lt hp)]

theorem bitins_getLsbD (orig : Byte) (p : Nat) (b : Bool) (q : Nat) :
    (bitins orig p b).getLsbD q = if q = p ∧ q < 8 then b else orig.getLsbD q := by
  have hbit : (1#8 <<< p).getLsbD q = decide (q = p ∧ q < 8) := by
    simp only [BitVec.getLsbD_shiftLeft, BitVec.getLsbD_one]
    grind
  have hlt : orig.getLsbD q = true → q < 8 := BitVec.lt_of_getLsbD
  unfold bitins
  generalize 1#8 <<< p = one at hbit
  by_cases hp : q = p ∧ q < 8
  · rw [if_pos hp]
    rw [decide_eq_true hp] at hbit
    cases b <;> simp [hbit]
  · rw [if_neg hp]
    rw [decide_eq_false hp] at hbit
    cases b with
    | true => simp [hbit]
    | false => simpa [hbit] using hlt

/-! ### The frame of WriteBits (rule R186) -/

/-- Writing logical bit k changes no bit but the one it lies in. -/
theorem writeBit_getLsbD_other {s : State} {k a p : Nat} (b : Bool) (h : bitCell s k ≠ (a, p)) :
    (pixByte a (writeBit k b s)).getLsbD p = (pixByte a s).getLsbD p := by
  rw [writeBit, pixByte_carWrite]
  split
  · next ha =>
    subst ha
    rw [bitins_getLsbD, if_neg fun hp => h (Prod.ext rfl hp.1.symm)]
    rfl
  · rfl

/-- Writing logical bits changes no bit but those they lie in. -/
theorem writeBits_getLsbD_other {s : State} {k a p : Nat} {l : Bits}
    (h : ∀ j, j < l.length → bitCell s (k + j) ≠ (a, p)) :
    (pixByte a (writeBits k l s)).getLsbD p = (pixByte a s).getLsbD p := by
  induction l generalizing k s with
  | nil => rfl
  | cons b l ih =>
    have hhead : bitCell s k ≠ (a, p) := h 0 (Nat.succ_pos _)
    rw [writeBits_cons, ih (s := writeBit k b s) fun j hj => ?_, writeBit_getLsbD_other b hhead]
    have := h (j + 1) (Nat.succ_lt_succ hj)
    rwa [Nat.add_comm j, ← Nat.add_assoc] at this

/-! ### The payload zones of the carrier (rule R82) -/

/-- Position p of PIX cell a is one that logical bits lie in: position 0 of a carrier byte, or one below its effective
width. -/
def InZone (s : State) (a p : Nat) : Prop :=
  ∃ b, b < carLen s ∧ carKey s.imgw.toNat b = a ∧ (p = 0 ∨ p < ew b s.lsbw.toNat)

/-- From s to t no bit of PIX changes but those of the payload zones. -/
def ZonesOnly (s t : State) : Prop :=
  ∀ a p, ¬ InZone s a p → (pixByte a t).getLsbD p = (pixByte a s).getLsbD p

/-- From s to t no cell of PIX changes but those of the carrier. -/
def CarrierOnly (s t : State) : Prop :=
  ∀ a, (∀ b, b < carLen s → a ≠ carKey s.imgw.toNat b) → pixByte a t = pixByte a s

theorem translate_inZone {k w : Nat} (hw : k ≤ 4 ∨ w ≠ 0) :
    (translate k w).2 = 0 ∨ (translate k w).2 < ew (translate k w).1 w := by
  unfold translate
  split_ifs with h3 h4
  · exact .inl rfl
  · exact .inl rfl
  · have hw0 : 0 < w := by omega
    right
    rw [ew, if_neg (by dsimp only; generalize (k - 4) / w = q; omega)]
    exact Nat.mod_lt _ hw0

/-- A span that passes CheckSpan has every bit in a payload zone. -/
theorem bitCell_inZone {s : State} {k n j : Nat} (h : spanFits k n s) (hj : j < n) :
    InZone s (bitCell s (k + j)).1 (bitCell s (k + j)).2 :=
  ⟨_, spanFits_bit h hj, rfl, translate_inZone (h.1.imp (by omega) fun h0 h1 => h0 (BitVec.eq_of_toNat_eq h1))⟩

theorem zonesOnly_of_pix {s t : State} (h : t.pix = s.pix) : ZonesOnly s t := fun _ _ _ => by simp only [pixByte, h]

theorem zonesOnly_writeBits {s : State} {k : Nat} {l : Bits} (h : 0 < l.length → spanFits k l.length s) :
    ZonesOnly s (writeBits k l s) := fun a p hz =>
  writeBits_getLsbD_other fun j hj hcell => hz <| by
    have hin := bitCell_inZone (h (Nat.zero_lt_of_lt hj)) hj
    rwa [hcell] at hin

theorem zonesOnly_zoneins {s : State} {i : Nat} (d : Byte) (hi : i < carLen s) :
    ZonesOnly s (carWrite i (zoneins (carRead i s) d (ew i s.lsbw.toNat)) s) := fun a p hz => by
  rw [pixByte_carWrite]
  split
  · next ha =>
    subst ha
    rw [zoneins_getLsbD, if_neg fun hp => hz ⟨i, hi, rfl, .inr hp⟩]
    rfl
  · rfl

/-- A carrier byte keeps its bits at and above its zone: no other carrier byte lies in its cell. -/
theorem ZonesOnly.carrierZone {s t : State} (h : ZonesOnly s t) {b p : Nat} (hb : b < carLen s) (hp : 1 ≤ p)
    (hew : ew b s.lsbw.toNat ≤ p) :
    (pixByte (carKey s.imgw.toNat b) t).getLsbD p = (pixByte (carKey s.imgw.toNat b) s).getLsbD p := by
  refine h _ _ fun ⟨b', _, hkey, hzone⟩ => ?_
  obtain rfl : b' = b := carKey_injective (width_pos_of_lt hb) (Nat.le_of_lt_succ s.imgw.isLt) hkey
  omega

theorem ZonesOnly.carrierOnly {s t : State} (h : ZonesOnly s t) : CarrierOnly s t := fun a ha =>
  BitVec.eq_of_getLsbD_eq fun p _ => h a p fun ⟨b, hb, hkey, _⟩ => ha b hb hkey.symm

/-! ### The commands that write PIX -/

/-- What holds of every way a run ends, raises included, and does not depend on the fault record, holds at its end. -/
theorem Ends.finalState {P : State → Prop} {x : Run State} (h : Ends P (fun _ _ u => P u) x)
    (hraise : ∀ c sub info u, P u → P (raise c sub info u)) : P (finalState x) := by
  cases h with
  | done h => exact h
  | raised h => exact hraise _ _ _ _ h

/-- However the run ends, PIX has changed from s in payload zones only. -/
abbrev RunsInZones (s : State) (x : Run State) : Prop := Ends (ZonesOnly s) (fun _ _ u => ZonesOnly s u) x

/-- How every command that moves the cursor writes: CheckSpan, then WriteBits over the span, and BITPOS behind it. -/
theorem checkedWrite_runsInZones {s : State} {k n : Nat} {l : Bits} (hl : l.length = n) (b : BitVec 32) :
    RunsInZones s (do checkSpan k n .write s; return { writeBits k l s with bitpos := b }) :=
  (ends_checkSpan_write (fun _ _ => zonesOnly_of_pix rfl) (zonesOnly_of_pix rfl)).bind fun _ hfits =>
    .done (zonesOnly_writeBits fun _ => hl ▸ hfits :)

theorem cursorWrite_runsInZones (n : Nat) (s : State) : RunsInZones s (cursorWrite n s) :=
  checkedWrite_runsInZones (fieldbits_length _ _) _

theorem ends_checkZone {stop : FaultCode → Nat → State → Prop} {s : State} (hwidth : stop .paramError 1 s)
    (hindex : stop .paramError 4 s) : Ends (fun _ => s.idx.toNat < carLen s) stop (checkZone s) :=
  (ends_require _ fun _ => hwidth).bind fun _ _ => ends_require _ fun _ => hindex

theorem zonewrBody_runsInZones (s : State) : RunsInZones s (zonewrBody s) :=
  (ends_checkZone (zonesOnly_of_pix rfl) (zonesOnly_of_pix rfl)).bind fun _ hi => .done (zonesOnly_zoneins _ hi)

theorem fldwrBody_runsInZones (n : BitVec 6) (s : State) : RunsInZones s (fldwrBody n s) :=
  (ends_require _ fun _ => zonesOnly_of_pix rfl).bind fun _ _ => cursorWrite_runsInZones _ s

/-- The payload zones of the state BuildHeader leaves are those of s: it writes neither PIX, IMGW, IMGH nor LSBW. -/
theorem hdrputBody_runsInZones (s : State) : RunsInZones s (hdrputBody s) := by
  refine (ends_buildHeader (zonesOnly_of_pix rfl) (zonesOnly_of_pix rfl)).bind fun _ ⟨ht, he⟩ => ?_
  subst ht
  refine checkedWrite_runsInZones (s := builtHeader s) ?_ _
  rw [headerBits_length (by exact he), builtHeader_hdrsz_toNat he]
  rfl

theorem payputBody_runsInZones (s : State) : RunsInZones s (payputBody s) := by
  refine (ends_require _ fun _ => zonesOnly_of_pix rfl).bind fun _ _ => ?_
  dsimp only
  split
  · exact checkedWrite_runsInZones (payloadBits_length s) _
  · exact .done (zonesOnly_writeBits fun hpos => absurd (payloadBits_length s ▸ hpos) ‹_› :)

/-- T counts the bits of the whole frame (44_capacity.md rule R261). -/
theorem frame_length_eq_frameBits {s : State} (he : s.extlen.toNat ≤ 243) :
    (headerBits (builtHeader s) ++ payloadBits s).length = frameBits (builtHeader s) := by
  rw [List.length_append, headerBits_length (by exact he), payloadBits_length, frameBits, builtHeader_hdrsz_toNat he,
    builtHeader_filesz_toNat, builtHeader_extlen]

theorem embedBody_runsInZones (s : State) : RunsInZones s (embedBody s) := by
  refine (ends_buildHeader (zonesOnly_of_pix rfl) (zonesOnly_of_pix rfl)).bind fun _ ⟨ht, he⟩ => ?_
  subst ht
  refine (ends_require _ fun _ => zonesOnly_of_pix rfl).bind fun _ _ => ?_
  refine (ends_require _ fun _ => zonesOnly_of_pix rfl).bind fun _ _ => ?_
  exact checkedWrite_runsInZones (s := plan (frameBits (builtHeader s)) (builtHeader s))
    (frame_length_eq_frameBits he) _

theorem bodyOf_runsInZones {i : Instr} (hi : i ≠ .carwr) (hw : writesPix i = true) (s : State) :
    RunsInZones s (bodyOf i s) := by
  cases i with
  | carwr => exact absurd rfl hi
  | zonewr => exact zonewrBody_runsInZones s
  | bitwr => exact cursorWrite_runsInZones 1 s
  | fldwr n => exact fldwrBody_runsInZones n s
  | hdrput => exact hdrputBody_runsInZones s
  | payput => exact payputBody_runsInZones s
  | embed => exact embedBody_runsInZones s
  | _ => cases hw

theorem carwrBody_carrierOnly (s : State) : Ends (CarrierOnly s) (fun _ _ u => CarrierOnly s u) (carwrBody s) :=
  (ends_require _ fun _ _ _ => rfl).bind fun _ hi => .done fun a ha => by
    rw [pixByte_carWrite, if_neg (ha _ hi)]

/-! ### All commands -/

theorem exec_pix_of_not_writesPix {i : Instr} {s t : State} (hw : writesPix i = false) (h : exec i s = .next t) :
    t.pix = s.pix := by
  obtain ⟨-, -, -, -, -, -, -, -, -, -, -, -, hpix, -⟩ := commandsWriteOnlyWhatTheirRowsName i s t h
  exact hpix hw

/-- What holds of s and of the end of the command's run from s holds after the command, faulted state or not. -/
theorem exec_of_finalState {P : State → Prop} {i : Instr} {s t : State} (hi : i ≠ .reset) (h : exec i s = .next t)
    (hs : P s) (hrun : P (finalState (bodyOf i s))) : P t := by
  rw [exec_eq_command hi, command_next] at h
  split at h <;> cases h
  · exact hrun
  · exact hs

theorem exec_zonesOnly {i : Instr} {s t : State} (hi : i ≠ .carwr) (h : exec i s = .next t) : ZonesOnly s t := by
  cases hw : writesPix i with
  | false => exact zonesOnly_of_pix (exec_pix_of_not_writesPix hw h)
  | true =>
    refine exec_of_finalState (fun hr => by subst hr; cases hw) h (zonesOnly_of_pix rfl) ?_
    exact (bodyOf_runsInZones hi hw s).finalState fun _ _ _ _ hu => hu

theorem exec_carwr_carrierOnly {s t : State} (h : exec .carwr s = .next t) : CarrierOnly s t :=
  exec_of_finalState (by decide) h (fun _ _ => rfl) ((carwrBody_carrierOnly s).finalState fun _ _ _ _ hu => hu)

end Sys2Proof.Machine

/-- Settles O56: every command but CARWR stays in the payload zones, and CARWR in the carrier. -/
theorem carrierZoneIsNeverTouched : Obligations.CarrierZoneIsNeverTouched := by
  intro i s t h
  refine ⟨fun hi b p hb hp hew => (exec_zonesOnly hi h).carrierZone hb hp hew, ?_⟩
  by_cases hi : i = .carwr
  · subst hi
    exact exec_carwr_carrierOnly h
  · exact (exec_zonesOnly hi h).carrierOnly

end

section
/-! The decoder and the encoder (spec 30_encoding.md rules R101 to R104): O1, O2, O3, O4, O33. The one fact behind them
is `decode_eq_ok`: `decode` answers a command just for the data that is its encoding. -/

open Sys2Proof Sys2Proof.Machine

namespace Sys2Proof

/-! ### The fields of a command's data (rule R101) -/

theorem encode_highBits (i : Instr) : (encode i).extractLsb' 32 32 = 0 :=
  BitVec.extractLsb'_append_eq_left

theorem encode_setWidth (i : Instr) : (encode i).setWidth 32 = encodeWord i :=
  BitVec.setWidth_append_eq_right

theorem append_setWidth_of_highBits {d : BitVec 64} (h : d.extractLsb' 32 32 = 0) : 0#32 ++ d.setWidth 32 = d := by
  rw [show 0#32 = d.extractLsb' 32 32 from h.symm]
  refine BitVec.eq_of_getLsbD_eq fun i hi => ?_
  rw [BitVec.getLsbD_append]
  split
  · rw [BitVec.getLsbD_setWidth, decide_eq_true ‹i < 32›, Bool.true_and]
  · rw [BitVec.getLsbD_extractLsb', Nat.add_sub_cancel' (by omega), decide_eq_true (by omega), Bool.true_and]

theorem encode_toNat (i : Instr) : (encode i).toNat = (opcodeOf i).toNat + 256 * (countOf i).toNat := by
  rw [encode, encodeWord, BitVec.toNat_append, BitVec.toNat_append, BitVec.toNat_append,
    ← Nat.shiftLeft_add_eq_or_of_lt (opcodeOf i).isLt, Nat.shiftLeft_eq]
  simp
  omega

/-- A word whose bits outside CNT are OPC's is put together from OPC and its CNT. -/
theorem append_countField {w : Word} {opc : BitVec 8} (h : w &&& 0xFFFFC0FF = opc.setWidth 32) :
    (0#18 ++ countField w) ++ opc = w := by
  refine BitVec.eq_of_getLsbD_eq fun i hi => ?_
  have hmask : ∀ i, i < 32 → (0xFFFFC0FF : Word).getLsbD i = decide (i < 8 ∨ 14 ≤ i) := by decide
  have hbit := congrArg (·.getLsbD i) h
  simp only [BitVec.getLsbD_and, BitVec.getLsbD_setWidth, hmask i hi] at hbit
  rw [BitVec.getLsbD_append]
  split
  · simp_all
  · rw [BitVec.getLsbD_append, countField, BitVec.getLsbD_extractLsb']
    split
    · rw [Nat.add_sub_cancel' (by omega), decide_eq_true ‹_›, Bool.true_and]
    · have : 14 ≤ i := by omega
      simp_all

/-! ### The opcode map and its inverse (rule R102) -/

/-- A row is a plain command's, and its pattern the whole word; or it is FLDRD's or FLDWR's, and its pattern is OPC. -/
theorem opcodeRows_words : ∀ r ∈ opcodeRows,
    (r.mask = 0xFFFFFFFF ∧ ∀ n, encodeWord (r.instr n) = r.pattern) ∨
    (r.mask = 0xFFFFC0FF ∧ r.pattern = (r.pattern.setWidth 8).setWidth 32 ∧
      ∀ n, encodeWord (r.instr n) = (0#18 ++ n) ++ r.pattern.setWidth 8) := by
  decide

/-- A word selects its own command's row, a bad count included. -/
theorem decodeRow_encodeWord (i : Instr) : decodeRow (encodeWord i) = some i := by
  cases i with
  | fldrd n => revert n; decide
  | fldwr n => revert n; decide
  | _ => rfl

/-- The row of a command is selected by no word but the command's own. -/
theorem encodeWord_of_decodeRow {w : Word} {i : Instr} (h : decodeRow w = some i) : encodeWord i = w := by
  obtain ⟨r, hfind, rfl⟩ := Option.map_eq_some_iff.1 h
  have hmatch : w &&& r.mask = r.pattern := by simpa using List.find?_some hfind
  rcases opcodeRows_words r (List.mem_of_find?_eq_some hfind) with ⟨hmask, hword⟩ | ⟨hmask, hpattern, hword⟩
  · rw [hword, ← hmatch, hmask]
    exact BitVec.and_allOnes
  · rw [hword]
    exact append_countField (hmask ▸ hmatch.trans hpattern)

/-- `decode` and `encode` are inverse to one another on the well-formed commands. -/
theorem decode_eq_ok {d : BitVec 64} {i : Instr} : decode d = .ok i ↔ encode i = d ∧ i.wellFormed = true := by
  constructor
  · intro h
    unfold decode at h
    split at h
    · cases h
    · next hhigh =>
      split at h
      · cases h
      · next j hrow =>
        split at h <;> cases h
        rw [encode, encodeWord_of_decodeRow hrow]
        exact ⟨append_setWidth_of_highBits (not_not.1 hhigh), ‹_›⟩
  · rintro ⟨rfl, hwf⟩
    simp only [decode, encode_highBits, encode_setWidth, decodeRow_encodeWord, hwf]
    rfl

/-! ### The legal data as numbers (rules R103, R104) -/

/-- The commands that take no count. -/
def plainInstrs : List Instr :=
  [.nop, .reset, .flat, .unflat, .carrd, .carwr, .xlate, .zonerd, .zonewr, .bitrd, .bitwr, .hdrbuild, .hdrput, .hdrget,
   .capchk, .payput, .payget, .embed, .extract]

theorem plainOpcodes_eq : plainOpcodes = plainInstrs.map fun i => (encode i).toNat := by decide

theorem wellFormed_iff {i : Instr} :
    i.wellFormed = true ↔ i ∈ plainInstrs ∨ ∃ n : BitVec 6, countOk n = true ∧ (i = .fldrd n ∨ i = .fldwr n) := by
  cases i <;> simp [Instr.wellFormed, plainInstrs]

theorem legalData_encode {i : Instr} (hi : i.wellFormed = true) : LegalData (encode i).toNat := by
  rcases wellFormed_iff.1 hi with h | ⟨n, hn, h⟩
  · exact .inl (plainOpcodes_eq ▸ List.mem_map_of_mem h)
  · have hn := of_decide_eq_true hn
    refine .inr ⟨n.toNat, by omega, hn.1, ?_⟩
    rcases h with rfl | rfl <;> simp [encode_toNat, opcodeOf, countOf]

/-- The data `LegalData` describes are those the decoder accepts. -/
theorem legalData_iff {d : BitVec 64} : LegalData d.toNat ↔ ∃ i, decode d = .ok i := by
  constructor
  · intro h
    suffices ∃ i : Instr, i.wellFormed = true ∧ (encode i).toNat = d.toNat by
      obtain ⟨i, hi, hd⟩ := this
      exact ⟨i, decode_eq_ok.2 ⟨BitVec.eq_of_toNat_eq hd, hi⟩⟩
    rcases h with h | ⟨n, hn, h1, h⟩
    · obtain ⟨i, hi, hd⟩ := List.mem_map.1 (plainOpcodes_eq ▸ h)
      exact ⟨i, wellFormed_iff.2 (.inl hi), hd⟩
    · have hcount : (BitVec.ofNat 6 n).toNat = n := Nat.mod_eq_of_lt (by omega)
      have hok : countOk (.ofNat 6 n) = true := decide_eq_true (by omega)
      rcases h with h | h
      · exact ⟨.fldrd (.ofNat 6 n), hok, by rw [encode_toNat, countOf, hcount, h]; rfl⟩
      · exact ⟨.fldwr (.ofNat 6 n), hok, by rw [encode_toNat, countOf, hcount, h]; rfl⟩
  · rintro ⟨i, h⟩
    obtain ⟨rfl, hi⟩ := decode_eq_ok.1 h
    exact legalData_encode hi

end Sys2Proof

namespace Sys2Proof.Machine

/-- A command no word stands for is answered as an illegal word is (log entry 9). -/
theorem checkCount_bad {i : Instr} (h : i.wellFormed = false) (s : State) :
    checkCount i s = .error { s with fault := .illegalCommand, subcause := 0, finfo := encode i } := by
  rw [checkCount, require_of_not (by simp [h]), raise, BitVec.ofNat_toNat]
  simp

end Sys2Proof.Machine

/-- Settles O1: the direction of `decode_eq_ok` from the encoding. -/
theorem decodeOfEncodeIsTheCommand : Obligations.DecodeOfEncodeIsTheCommand := fun _ h => decode_eq_ok.2 ⟨rfl, h⟩

/-- Settles O2: the direction of `decode_eq_ok` from the data. -/
theorem encodeOfDecodeIsTheData : Obligations.EncodeOfDecodeIsTheData := fun _ _ => decode_eq_ok.1

/-- Settles O3: each word is decoded by evaluation. -/
theorem sampleWordsDecode : Obligations.SampleWordsDecode := ⟨rfl, rfl, rfl, rfl, rfl, rfl, rfl, rfl, rfl, rfl, rfl⟩

/-- Settles O4: the data `LegalData` leaves out is the data `decode` refuses (`legalData_iff`). -/
theorem illegalDataRaisesIllegalCommand : Obligations.IllegalDataRaisesIllegalCommand := by
  intro s d rest hlive hpending
  rw [step_cons hpending, legalData_iff]
  show (_ → writeCmd d _ = _) ∧ (_ → ∃ i, _ ∧ writeCmd d _ = _)
  unfold writeCmd
  cases hd : decode d with
  | ok i => exact ⟨fun h => absurd ⟨i, rfl⟩ h, fun _ => ⟨i, rfl, rfl⟩⟩
  | error e =>
    refine ⟨fun _ => ?_, fun ⟨i, h⟩ => by cases h⟩
    simp [command, hlive, fail, raise]

/-- Settles O33: the test of the count comes first in both commands. -/
theorem badCountIsIllegal : Obligations.BadCountIsIllegal := by
  intro s n hlive hn
  have hbad : countOk n = false := decide_eq_false (by omega)
  constructor
  · rw [exec_eq_command (by simp), command_live hlive, bodyOf, fldrdBody, checkCount_bad (i := .fldrd n) hbad]
    rfl
  · rw [exec_eq_command (by simp), command_live hlive, bodyOf, fldwrBody, checkCount_bad (i := .fldwr n) hbad]
    rfl
end

section
/-! Fields as bit strings and the layout of the header (spec 30_encoding.md rules R120 to R123): O34, O35. -/

open Sys2Proof Sys2Proof.Machine

namespace Sys2Proof.Machine

/-! ### One field (rule R121) -/

theorem fieldbits_getElem {v b j : Nat} (h : j < (fieldbits v b).length) : (fieldbits v b)[j] = v.testBit j := by
  simp [fieldbits]

theorem fieldbits_succ (v b : Nat) : fieldbits v (b + 1) = v.testBit 0 :: fieldbits (v / 2) b := by
  simp [fieldbits, List.range_succ_eq_map, Nat.testBit_succ, Function.comp_def]

theorem fieldval_fieldbits (v b : Nat) : fieldval (fieldbits v b) = v % 2 ^ b := by
  induction b generalizing v with
  | zero => simp [fieldbits, fieldval, Nat.mod_one]
  | succ b ih =>
    rw [fieldbits_succ, fieldval, ih, Nat.toNat_testBit, Nat.pow_zero, Nat.div_one, Nat.pow_succ', Nat.mod_mul]

theorem fieldbits_fieldval (l : Bits) : fieldbits (fieldval l) l.length = l := by
  induction l with
  | nil => rfl
  | cons b l ih =>
    have hhead : (fieldval (b :: l)).testBit 0 = b := by cases b <;> simp [fieldval]
    have htail : fieldval (b :: l) / 2 = fieldval l := by cases b <;> simp [fieldval]; omega
    rw [List.length_cons, fieldbits_succ, hhead, htail, ih]

/-! ### A field inside a bit string (rule R120) -/

/-- The value of the b bits of l from bit k on. -/
def fieldAt (l : Bits) (k b : Nat) : Nat := fieldval ((l.drop k).take b)

theorem fieldAt_append_right {l : Bits} (l' : Bits) {k : Nat} (b : Nat) (h : l.length ≤ k) :
    fieldAt (l ++ l') k b = fieldAt l' (k - l.length) b := by
  rw [fieldAt, List.drop_append, List.drop_eq_nil_of_le h, List.nil_append, fieldAt]

theorem fieldAt_fieldbits {v b : Nat} (l : Bits) (h : v < 2 ^ b) : fieldAt (fieldbits v b ++ l) 0 b = v := by
  rw [fieldAt, List.drop_zero, List.take_left' (fieldbits_length v b), fieldval_fieldbits, Nat.mod_eq_of_lt h]

theorem bytebits_cons (b : Byte) (e : List Byte) : bytebits (b :: e) = fieldbits b.toNat 8 ++ bytebits e := rfl

theorem fieldAt_bytebits {e : List Byte} (l : Bits) {j : Nat} (h : j < e.length) :
    fieldAt (bytebits e ++ l) (8 * j) 8 = e[j].toNat := by
  induction e generalizing j with
  | nil => simp at h
  | cons b e ih =>
    rw [bytebits_cons, List.append_assoc]
    cases j with
    | zero => exact fieldAt_fieldbits _ b.isLt
    | succ j =>
      rw [fieldAt_append_right _ _ (by simp), fieldbits_length, Nat.mul_succ, Nat.add_sub_cancel]
      exact ih (Nat.lt_of_succ_lt_succ h)

/-! ### The layout of the header (rules R122, R123) -/

/-- The 51 header bits in front of the extension. -/
def headerFront (w wid hei : Nat) : Bits :=
  fieldbits magic 2 ++ (fieldbits w 3 ++ (fieldbits sep 8 ++ (fieldbits wid 11 ++
    (fieldbits sep 8 ++ (fieldbits hei 11 ++ fieldbits sep 8)))))

/-- The 48 header bits behind the extension. -/
def headerBack (f : Nat) : Bits := fieldbits terminator 8 ++ (fieldbits f 32 ++ fieldbits sep 8)

theorem serialize_eq (w wid hei : Nat) (e : List Byte) (f : Nat) :
    serialize w wid hei e f = headerFront w wid hei ++ (bytebits e ++ headerBack f) := by
  simp only [serialize, headerFront, headerBack, List.append_assoc]

@[simp] theorem headerFront_length (w wid hei : Nat) : (headerFront w wid hei).length = 51 := by simp [headerFront]

@[simp] theorem headerBack_length (f : Nat) : (headerBack f).length = 48 := by simp [headerBack]

theorem serialize_length (w wid hei : Nat) (e : List Byte) (f : Nat) :
    (serialize w wid hei e f).length = 99 + 8 * e.length := by
  simp [serialize_eq, bytebits_length]
  omega

section
variable {w wid hei f : Nat} {e : List Byte} {l : Bits}

/-- The fields in front of the extension, whatever follows the header. -/
theorem serialize_front_fields (hw : w < 8) (hwid : wid < 2048) (hhei : hei < 2048) :
    fieldAt (serialize w wid hei e f ++ l) 0 2 = 3 ∧ fieldAt (serialize w wid hei e f ++ l) 2 3 = w ∧
    fieldAt (serialize w wid hei e f ++ l) 5 8 = 0x78 ∧ fieldAt (serialize w wid hei e f ++ l) 13 11 = wid ∧
    fieldAt (serialize w wid hei e f ++ l) 24 8 = 0x78 ∧ fieldAt (serialize w wid hei e f ++ l) 32 11 = hei ∧
    fieldAt (serialize w wid hei e f ++ l) 43 8 = 0x78 := by
  simp [serialize_eq, headerFront, fieldAt_append_right, fieldAt_fieldbits, hw, hwid, hhei, magic, sep]

theorem serialize_extension_byte {j : Nat} (h : j < e.length) :
    fieldAt (serialize w wid hei e f ++ l) (51 + 8 * j) 8 = e[j].toNat := by
  rw [serialize_eq, List.append_assoc, fieldAt_append_right _ _ (by simp), headerFront_length, Nat.add_sub_cancel_left,
    List.append_assoc, fieldAt_bytebits _ h]

theorem serialize_behind_extension {k k' : Nat} (b : Nat) (h : k' = 51 + 8 * e.length + k) :
    fieldAt (serialize w wid hei e f ++ l) k' b = fieldAt (headerBack f ++ l) k b := by
  have hlen : (headerFront w wid hei ++ bytebits e).length = 51 + 8 * e.length := by simp [bytebits_length]
  rw [serialize_eq, ← List.append_assoc, List.append_assoc, fieldAt_append_right _ _ (by omega), hlen, h,
    Nat.add_sub_cancel_left]

/-- The fields behind the extension, whatever follows the header. -/
theorem serialize_back_fields (hf : f < 2 ^ 32) :
    fieldAt (serialize w wid hei e f ++ l) (51 + 8 * e.length) 8 = 0x0A ∧
    fieldAt (serialize w wid hei e f ++ l) (59 + 8 * e.length) 32 = f ∧
    fieldAt (serialize w wid hei e f ++ l) (91 + 8 * e.length) 8 = 0x78 := by
  have hf : f < 4294967296 := hf
  refine ⟨(serialize_behind_extension 8 (k := 0) rfl).trans ?_,
    (serialize_behind_extension 32 (k := 8) (by omega)).trans ?_,
    (serialize_behind_extension 8 (k := 40) (by omega)).trans ?_⟩
  · simp [headerBack, fieldAt_fieldbits, terminator]
  · simp [headerBack, fieldAt_append_right, fieldAt_fieldbits, hf]
  · simp [headerBack, fieldAt_append_right, fieldAt_fieldbits, sep]

end

end Sys2Proof.Machine

/-- Settles O34: by induction on the width, and on the list. -/
theorem fieldBitsRoundTrip : Obligations.FieldBitsRoundTrip :=
  ⟨fun v b => ⟨fieldbits_length v b, fieldval_fieldbits v b, fun _ h =>
    (fieldbits_getElem h).trans Nat.testBit_eq_decide_div_mod_eq⟩, fieldbits_fieldval⟩

/-- Settles O35: the fields in front of the extension, its bytes and the fields behind it. -/
theorem headerLayout : Obligations.HeaderLayout := by
  intro w wid hei f e hw hwid hhei hf
  have hfront := serialize_front_fields (e := e) (f := f) (l := []) hw hwid hhei
  have hback := serialize_back_fields (w := w) (wid := wid) (hei := hei) (e := e) (l := []) hf
  have hext := @serialize_extension_byte w wid hei f e []
  simp only [List.append_nil] at hfront hback hext
  obtain ⟨hcode, hwidth, hsep1, himgw, hsep2, himgh, hsep3⟩ := hfront
  exact ⟨serialize_length w wid hei e f, hcode, hwidth, hsep1, himgw, hsep2, himgh, hsep3, fun _ => hext, hback⟩
end

section
/-! The host's moves of the setext pseudo-instruction (spec 30_encoding.md rule R107, 40_system.md rule R141): O15. -/

open Sys2Proof Sys2Proof.Machine

namespace Sys2Proof.Machine

/-! ### Runs of register writes -/

theorem run_succ {M : Host.Core} {s t : M.State} (k : Nat) (h : M.step s = .next t) : M.run (k + 1) s = M.run k t := by
  simp only [Host.Core.run, h]

/-- The host's run of the machine, its states named as the model names them. -/
def runSteps (k : Nat) (s : State) : Host.Outcome State Fault Refusal := core.run k s

theorem runSteps_succ {s t : State} (k : Nat) (h : step s = .next t) : runSteps (k + 1) s = runSteps k t :=
  run_succ (M := core) k h

/-- The step of a write to a register in a live state. -/
theorem step_writeReg {s : State} {index : BitVec 12} {data : BitVec 64} {rest : List HostMove} {r : Reg}
    (hlive : Live s) (hp : s.pending = .bus (.wr index data) :: rest) (hr : regAt index.toNat = some r)
    (hindex : index ≠ 0) : step s = .next (writeReg r data { s with pending := rest }) := by
  rw [step_cons hp, hostMove, transact, if_neg hindex, writeIndex, if_pos (by exact hlive), hr]

theorem regAt_ext {j : Nat} (h : j < 243) : regAt (0x100 + j) = some (.ext ⟨j, h⟩) := by
  rw [regAt, dif_pos (by omega)]
  simp

/-! ### Loading EXT -/

/-- The EXT bytes from EXT[j] on become those of the list. -/
def loadExt : Nat → List Byte → State → State
  | _, [], s => s
  | j, b :: l, s => loadExt (j + 1) l (extWrite j b s)

theorem loadExt_eq (j : Nat) (l : List Byte) (s : State) : loadExt j l s = { s with ext := (loadExt j l s).ext } := by
  induction l generalizing j s with
  | nil => rfl
  | cons b l ih => rw [loadExt, ih]; rfl

theorem extRead_loadExt_other {i j : Nat} (l : List Byte) (s : State) (h : i < j ∨ j + l.length ≤ i) :
    extRead i (loadExt j l s) = extRead i s := by
  induction l generalizing j s with
  | nil => rfl
  | cons b l ih =>
    rw [List.length_cons] at h
    rw [loadExt, ih _ (by omega), extRead_extWrite, if_neg (by omega)]

theorem extRead_loadExt {i j : Nat} (l : List Byte) (s : State) (hj : j + l.length ≤ 243) (hi : i < l.length) :
    extRead (j + i) (loadExt j l s) = l[i] := by
  induction l generalizing i j s with
  | nil => cases hi
  | cons b l ih =>
    rw [List.length_cons] at hj hi
    rw [loadExt]
    cases i with
    | zero => rw [extRead_loadExt_other _ _ (by omega), extRead_extWrite, if_pos (by omega), List.getElem_cons_zero]
    | succ i =>
      rw [← Nat.add_assoc, Nat.add_right_comm]
      exact ih _ (by omega) (by omega)

/-- In a live state the writes to EXT[j], EXT[j+1], … are carried out one after the other. -/
theorem runSteps_extFrom {l : List Byte} {j n : Nat} {s : State} {rest : List HostMove} (hj : j + l.length ≤ 243)
    (hlive : Live s) (hp : s.pending = Asm.extFrom j l ++ rest) :
    runSteps (l.length + n) s = runSteps n (loadExt j l { s with pending := rest }) := by
  induction l generalizing j s with
  | nil =>
    rw [List.length_nil, Nat.zero_add]
    exact congrArg _ (congrArg (fun p => { s with pending := p }) hp)
  | cons b l ih =>
    rw [List.length_cons] at hj
    have hjlt : j < 243 := by omega
    have hindex : (BitVec.ofNat 12 (0x100 + j)).toNat = 0x100 + j := Nat.mod_eq_of_lt (by omega)
    have hne : BitVec.ofNat 12 (0x100 + j) ≠ 0 := fun h => by
      have hzero : 0x100 + j = 0 := hindex.symm.trans (congrArg BitVec.toNat h)
      omega
    have hstep := step_writeReg hlive hp (hindex ▸ regAt_ext hjlt) hne
    have hbyte : (b.setWidth 64).setWidth 8 = b := by simp
    rw [writeReg, hbyte] at hstep
    rw [List.length_cons, Nat.add_right_comm, runSteps_succ _ hstep]
    exact ih (s := extWrite j b { s with pending := Asm.extFrom (j + 1) l ++ rest }) (by omega) hlive rfl

theorem length_extFrom (j : Nat) (l : List Byte) : (Asm.extFrom j l).length = l.length := by
  induction l generalizing j with
  | nil => rfl
  | cons b l ih => rw [Asm.extFrom, List.length_cons, ih, List.length_cons]

end Sys2Proof.Machine

/-- Settles O15: the writes to EXT one by one (`runSteps_extFrom`), and the write to EXTLEN behind them. -/
theorem setextLoadsTheExtension : Obligations.SetextLoadsTheExtension := by
  intro e s hlen hlive hp
  let u := loadExt 0 e { s with pending := [Asm.wr .extlen e.length] }
  have hu : u = { s with pending := [Asm.wr .extlen e.length], ext := u.ext } := loadExt_eq _ _ _
  have hext : runSteps (Asm.setext e).length s = runSteps 1 u := by
    rw [Asm.setext, List.length_append, length_extFrom]
    exact runSteps_extFrom (by omega) hlive hp
  have hlast : step u = .next { u with pending := [], extlen := BitVec.ofNat 8 e.length } := by
    have hlow : (BitVec.ofNat 64 e.length).setWidth 8 = BitVec.ofNat 8 e.length := by
      apply BitVec.eq_of_toNat_eq
      simp
    rw [step_writeReg (r := .extlen) (by rw [hu]; exact hlive) (by rw [hu]; rfl) rfl (by decide), writeReg, hlow]
  refine ⟨_, hext.trans (runSteps_succ 0 hlast), ?_, fun j h => ?_, fun j h => ?_⟩
  · rw [hu]
  · rw [← extRead_loadExt e { s with pending := [Asm.wr .extlen e.length] } (j := 0) (by omega) h, Nat.zero_add]
    rfl
  · exact extRead_loadExt_other e { s with pending := [Asm.wr .extlen e.length] } (.inr (by omega))
end

section
/-! What WriteBits wrote is what ReadBits reads (spec 42_translator_mux.md rules R180, R182, R186, R188): different
logical bits of a span lie in different cells (`bitCell_injective`). -/

namespace Sys2Proof.Machine

/-! ### Logical bits and their cells -/

theorem translate_of_le {k : Nat} (w : Nat) (h : k ≤ 4) : translate k w = (k, 0) := by
  unfold translate
  split_ifs with h3 h4
  · rfl
  · rw [h4]
  · omega

/-- A logical bit is the first one of its byte plus its position. -/
theorem zonebase_translate (k w : Nat) : zonebase (translate k w).1 w + (translate k w).2 = k := by
  by_cases h4 : k ≤ 4
  · rw [translate_of_le w h4, zonebase]
    split_ifs
    · rfl
    · simp [show k = 4 by omega]
  · rw [translate, if_neg (by omega), if_neg (by omega), zonebase,
      if_neg (by dsimp only; generalize (k - 4) / w = q; omega)]
    rw [Nat.add_sub_cancel_left, Nat.add_assoc, Nat.div_add_mod', Nat.add_sub_cancel' (by omega)]

/-- The width CheckSpan demands for the last bit serves every bit of the span. -/
theorem spanFits_width {k n j : Nat} {s : State} (h : spanFits k n s) (hj : j < n) :
    k + j ≤ 4 ∨ s.lsbw.toNat ≠ 0 :=
  h.1.imp (Nat.le_trans (Nat.le_sub_one_of_lt (Nat.add_lt_add_left hj k))) fun h0 h1 => h0 (BitVec.eq_of_toNat_eq h1)

theorem bitCell_position_lt {k n j : Nat} {s : State} (h : spanFits k n s) (hj : j < n) :
    (bitCell s (k + j)).2 < 8 :=
  Nat.lt_of_le_of_lt (translate_snd_le (Nat.le_of_lt_succ s.lsbw.isLt) (spanFits_width h hj)) (by decide)

/-- No other logical bit lies in the cell of a bit of a span inside the carrier. -/
theorem bitCell_injective {k n i j : Nat} {s : State} (h : spanFits k n s) (hi : i < n)
    (hcell : bitCell s (k + i) = bitCell s (k + j)) : i = j := by
  obtain ⟨hkey, hpos⟩ := Prod.ext_iff.1 hcell
  have hbyte : (translate (k + i) s.lsbw.toNat).1 = (translate (k + j) s.lsbw.toNat).1 :=
    carKey_injective (width_pos_of_lt (spanFits_bit h hi)) (Nat.le_of_lt_succ s.imgw.isLt) hkey
  have hbit : k + i = k + j := by
    rw [← zonebase_translate (k + i) s.lsbw.toNat, ← zonebase_translate (k + j) s.lsbw.toNat, hbyte]
    exact congrArg _ hpos
  omega

/-- A part of a span that fits, fits. -/
theorem spanFits_part {k n k' n' : Nat} {s : State} (h : spanFits k n s) (hpos : 0 < n') (hle : k' + n' ≤ k + n) :
    spanFits k' n' s :=
  ⟨h.1.imp_left (by omega), Nat.lt_of_le_of_lt (translate_fst_mono _ (by omega)) h.2⟩

/-! ### Read after write -/

theorem readBit_eq (k : Nat) (s : State) : readBit k s = (pixByte (bitCell s k).1 s).getLsbD (bitCell s k).2 := rfl

theorem getElem_readBits {k n j : Nat} {s : State} (h : j < (readBits k n s).length) :
    (readBits k n s)[j] = readBit (k + j) s := by
  simp [readBits]

theorem readBits_part {k b n : Nat} (s : State) (h : k + b ≤ n) :
    readBits k b s = ((readBits 0 n s).drop k).take b :=
  List.ext_getElem (by simp; omega) fun j _ _ => by simp [readBits]

theorem writeBit_getLsbD_same {s : State} {k : Nat} (b : Bool) (h : (bitCell s k).2 < 8) :
    (pixByte (bitCell s k).1 (writeBit k b s)).getLsbD (bitCell s k).2 = b := by
  rw [writeBit, pixByte_carWrite, if_pos rfl, bitins_getLsbD, if_pos ⟨rfl, h⟩]

/-- WriteBits over a span that fits writes the bits of the list and no other bit. -/
theorem wroteBits_writeBits {s : State} {k : Nat} {l : Bits} (h : 0 < l.length → spanFits k l.length s) :
    WroteBits k l s (writeBits k l s) := by
  refine ⟨?_, fun a p => writeBits_getLsbD_other⟩
  induction l generalizing k s with
  | nil => intro j hj; cases hj
  | cons b l ih =>
    have hspan := h (Nat.succ_pos _)
    intro j hj
    rw [writeBits_cons]
    cases j with
    | zero =>
      rw [writeBits_getLsbD_other fun i hi hcell => ?_]
      · exact writeBit_getLsbD_same b (bitCell_position_lt hspan hj)
      · have hcell : bitCell s (k + (i + 1)) = bitCell s (k + 0) := by
          rwa [Nat.add_comm i, ← Nat.add_assoc]
        exact absurd (bitCell_injective hspan (Nat.succ_lt_succ hi) hcell) (Nat.succ_ne_zero i)
    | succ j =>
      have htail : 0 < l.length → spanFits (k + 1) l.length (writeBit k b s) := fun hpos =>
        spanFits_part (s := writeBit k b s) hspan hpos (by rw [List.length_cons]; omega)
      have := ih htail j (Nat.lt_of_succ_lt_succ hj)
      rwa [Nat.add_right_comm k 1 j, Nat.add_assoc k j 1] at this

theorem readBits_writeBits {s : State} {k : Nat} {l : Bits} (h : 0 < l.length → spanFits k l.length s) :
    readBits k l.length (writeBits k l s) = l := by
  refine List.ext_getElem (readBits_length _ _ _) fun j hj hl => ?_
  rw [getElem_readBits, readBit_eq, bitCell, writeBits_imgw, writeBits_lsbw]
  exact (wroteBits_writeBits h).1 j hl

/-- What WriteBits leaves in PIX depends on PIX, IMGW and LSBW alone. -/
theorem writeBits_pix_congr {s t : State} (hp : t.pix = s.pix) (hw : t.imgw = s.imgw) (hl : t.lsbw = s.lsbw) (k : Nat)
    (l : Bits) : (writeBits k l t).pix = (writeBits k l s).pix := by
  induction l generalizing k s t with
  | nil => exact hp
  | cons b l ih =>
    refine ih (s := writeBit k b s) (t := writeBit k b t) ?_ hw hl (k + 1)
    simp only [writeBit, carWrite_pix, carRead, pixByte, hp, hw, hl]

end Sys2Proof.Machine
end

section
/-! HDRGET on a carrier whose header is valid up to the terminator (spec 43_header.md rules R240, R241): its run
comes to ReadFileSize with the extension loaded (`hdrgetBody_terminated`), and ReadFileSize ends in one of two ways
(`readFileSize_cases`). -/

namespace Sys2Proof.Machine

/-- A run goes on behind a piece that reaches its end. -/
theorem bind_of_ok {α β : Type} {x : Run α} {a : α} {f : α → Run β} {r : Run β} (hx : x = .ok a) (hf : f a = r) :
    x >>= f = r := by
  rw [hx]
  exact hf

/-- A raise ends the run. -/
theorem bind_of_error {α β : Type} {x : Run α} {u : State} {f : α → Run β} (hx : x = .error u) :
    x >>= f = .error u := by
  rw [hx]
  rfl

/-! ### Reads at the frame's own width -/

/-- A state on the way of HDRGET from s, behind the bootstrap: the carrier is that of s, read at the frame's width. -/
structure OnFrame (s u : State) : Prop where
  pix : u.pix = s.pix
  imgw : u.imgw = s.imgw
  imgh : u.imgh = s.imgh
  lsbw : u.lsbw = (atFrameWidth s).lsbw

theorem OnFrame.getField {s u : State} {k b : Nat} (h : OnFrame s u) (hspan : spanFits k b (atFrameWidth s)) :
    getField k b u = .ok (frameField k b s) := by
  have hfits : spanFits k b u := (spanFits_congr (s := atFrameWidth s) h.imgw h.imgh h.lsbw k b).2 hspan
  rw [getField_ok hfits, frameField, readField_congr (s := atFrameWidth s) h.pix h.imgw h.lsbw]

theorem OnFrame.readSeparator_ok {s u : State} {k : Nat} (sub : Nat) (h : OnFrame s u)
    (hspan : spanFits k 8 (atFrameWidth s)) (hsep : frameField k 8 s = sep) :
    readSeparator k sub u = .ok { u with bitpos := BitVec.ofNat 32 (k + 8) } :=
  bind_of_ok (h.getField hspan) (bind_of_ok (require_of hsep _ _ _ _) rfl)

theorem OnFrame.readSeparator_bad {s u : State} {k : Nat} (sub : Nat) (h : OnFrame s u)
    (hspan : spanFits k 8 (atFrameWidth s)) (hsep : frameField k 8 s ≠ sep) :
    readSeparator k sub u =
      .error (raise .corruptedHeader sub (frameField k 8 s) { u with bitpos := BitVec.ofNat 32 (k + 8) }) :=
  bind_of_ok (h.getField hspan) (bind_of_error (require_of_not hsep _ _ _ _))

/-! ### ReadBootstrap -/

/-- Logical bits 0 to 4 lie in the first five bytes, whatever the width. -/
theorem spanFits_bootstrap {k b : Nat} {s : State} (h : 5 ≤ carLen s) (hle : k + b ≤ 5) : spanFits k b s :=
  ⟨.inl (by omega), by rw [translate_of_le _ (by omega)]; dsimp only; omega⟩

theorem readBootstrap_ok {s : State} (h : BootstrapOk s) : readBootstrap s = .ok (gotBootstrap s) := by
  obtain ⟨hlen, hcode, hwidth⟩ := h
  have hget : ∀ k b, k + b ≤ 5 → getField k b { s with phase := .bootstrap } = .ok (readField k b s) := fun _ _ hle =>
    getField_ok (spanFits_bootstrap (by exact hlen) hle)
  refine bind_of_ok (hget 0 2 (by decide)) ?_
  refine bind_of_ok (hget 2 3 (by decide)) ?_
  exact bind_of_ok (require_of hcode _ _ _ _) (bind_of_ok (require_of hwidth _ _ _ _) rfl)

/-! ### ReadWidthHeight -/

/-- The state of HDRGET behind separator 3 when checks 1 to 7 pass. -/
def gotDimensions (s : State) : State :=
  { gotBootstrap s with phase := .widthHeight, hwidth := s.imgw, hheight := s.imgh, bitpos := 51 }

theorem readWidthHeight_ok {s : State} (h : DimensionsOk s) :
    readWidthHeight (gotBootstrap s) = .ok (gotDimensions s) := by
  obtain ⟨-, hspan, hsep1, hsep2, hsep3, hw, hh⟩ := h
  have hpart : ∀ k b, 0 < b → k + b ≤ 51 → spanFits k b (atFrameWidth s) := fun k b hpos hle =>
    spanFits_part hspan hpos (by omega)
  have hwidth : BitVec.ofNat 11 (frameField 13 11 s) = s.imgw := by simp [hw]
  have hheight : BitVec.ofNat 11 (frameField 32 11 s) = s.imgh := by simp [hh]
  refine bind_of_ok (OnFrame.readSeparator_ok 3 ?_ (hpart 5 8 (by decide) (by decide)) hsep1) ?_
  · exact ⟨rfl, rfl, rfl, rfl⟩
  refine bind_of_ok (OnFrame.getField ?_ (hpart 13 11 (by decide) (by decide))) ?_
  · exact ⟨rfl, rfl, rfl, rfl⟩
  refine bind_of_ok (OnFrame.readSeparator_ok 4 ?_ (hpart 24 8 (by decide) (by decide)) hsep2) ?_
  · exact ⟨rfl, rfl, rfl, rfl⟩
  refine bind_of_ok (OnFrame.getField ?_ (hpart 32 11 (by decide) (by decide))) ?_
  · exact ⟨rfl, rfl, rfl, rfl⟩
  refine bind_of_ok (OnFrame.readSeparator_ok 5 ?_ (hpart 43 8 (by decide) (by decide)) hsep3) ?_
  · exact ⟨rfl, rfl, rfl, rfl⟩
  refine bind_of_ok (require_of hwidth _ _ _ _) (bind_of_ok (require_of hheight _ _ _ _) ?_)
  simp only [hwidth, hheight]
  rfl

/-! ### The terminator scan -/

/-- The scan's state behind one extension byte with the value b, read at bit k. -/
def tookByte (k b : Nat) (u : State) : State :=
  { extWrite u.extlen.toNat (BitVec.ofNat 8 b) u with extlen := u.extlen + 1, bitpos := BitVec.ofNat 32 (k + 8) }

theorem tookByte_extlen_toNat {u : State} (k b : Nat) (h : u.extlen.toNat < 255) :
    (tookByte k b u).extlen.toNat = u.extlen.toNat + 1 := by
  show (u.extlen + 1).toNat = _
  rw [BitVec.toNat_add]
  exact Nat.mod_eq_of_lt (by simp; omega)

theorem extRead_tookByte (i k b : Nat) (u : State) :
    extRead i (tookByte k b u) = if i = u.extlen.toNat ∧ u.extlen.toNat < 243 then BitVec.ofNat 8 b else extRead i u :=
  extRead_extWrite i _ _ u

theorem scanExtension_terminator {s u : State} {k : Nat} (room : Nat) (h : OnFrame s u)
    (hspan : spanFits k 8 (atFrameWidth s)) (hterm : frameField k 8 s = terminator) :
    scanExtension room k u = .ok (k + 8, { u with bitpos := BitVec.ofNat 32 (k + 8) }) := by
  cases room with
  | zero => exact bind_of_ok (h.getField hspan) (bind_of_ok (require_of hterm _ _ _ _) rfl)
  | succ room => exact bind_of_ok (h.getField hspan) (if_pos hterm)

theorem scanExtension_byte {s u : State} {k : Nat} (room : Nat) (h : OnFrame s u)
    (hspan : spanFits k 8 (atFrameWidth s)) (hbyte : frameField k 8 s ≠ terminator) :
    scanExtension (room + 1) k u = scanExtension room (k + 8) (tookByte k (frameField k 8 s) u) :=
  bind_of_ok (h.getField hspan) (if_neg hbyte)

/-- The scan takes the n bytes in front of the first terminator into EXT, from EXT[EXTLEN] on, and ends behind it. -/
theorem scanExtension_ok {s u : State} {n room k : Nat} (h : OnFrame s u) (hroom : n ≤ room)
    (hext : u.extlen.toNat + n ≤ 243) (hspan : spanFits k (8 * n + 8) (atFrameWidth s))
    (hbytes : ∀ j, j < n → frameField (k + 8 * j) 8 s ≠ terminator)
    (hterm : frameField (k + 8 * n) 8 s = terminator) :
    ∃ t, scanExtension room k u = .ok (k + 8 * n + 8, t) ∧
      t = { u with
            ext := t.ext, extlen := u.extlen + BitVec.ofNat 8 n, bitpos := BitVec.ofNat 32 (k + 8 * n + 8) } ∧
      (∀ j, j < n → extRead (u.extlen.toNat + j) t = BitVec.ofNat 8 (frameField (k + 8 * j) 8 s)) ∧
      (∀ i, i < u.extlen.toNat ∨ u.extlen.toNat + n ≤ i → extRead i t = extRead i u) := by
  have hfirst : spanFits k 8 (atFrameWidth s) := spanFits_part hspan (by decide) (by omega)
  induction n generalizing room k u with
  | zero =>
    refine ⟨_, scanExtension_terminator room h hfirst hterm, ?_, fun j hj => absurd hj (Nat.not_lt_zero j),
      fun _ _ => rfl⟩
    rw [BitVec.add_zero]
  | succ n ih =>
    obtain ⟨room, rfl⟩ := Nat.exists_eq_succ_of_ne_zero (show room ≠ 0 by omega)
    have hlen := tookByte_extlen_toNat (u := u) k (frameField k 8 s) (by omega)
    have hbit : ∀ j, k + 8 + 8 * j = k + 8 * (j + 1) := fun j => by omega
    obtain ⟨t, hrun, ht, hin, hout⟩ := ih (u := tookByte k (frameField k 8 s) u) (k := k + 8) (room := room)
      ⟨h.pix, h.imgw, h.imgh, h.lsbw⟩ (by omega) (by omega) (spanFits_part hspan (by omega) (by omega))
      (fun j hj => by rw [hbit]; exact hbytes _ (by omega)) (by rw [hbit]; exact hterm)
      (spanFits_part hspan (by omega) (by omega))
    rw [hlen] at hin hout
    refine ⟨t, ?_, ?_, fun j hj => ?_, fun i hi => ?_⟩
    · rw [scanExtension_byte room h hfirst (hbytes 0 (Nat.succ_pos n)), ← hbit, hrun]
    · have hcount : u.extlen + BitVec.ofNat 8 (n + 1) = u.extlen + 1 + BitVec.ofNat 8 n := by
        rw [BitVec.add_assoc, Nat.add_comm n 1, BitVec.ofNat_add]
        rfl
      rw [← hbit, hcount]
      exact ht
    · cases j with
      | zero => rw [Nat.add_zero, hout _ (.inl (Nat.lt_succ_self _)), extRead_tookByte, if_pos ⟨rfl, by omega⟩]; rfl
      | succ j => rw [← hbit, ← hin j (by omega), Nat.add_right_comm, Nat.add_assoc _ j]
    · rw [hout i (by omega), extRead_tookByte, if_neg (by omega)]

/-! ### The whole header -/

/-- HDRGET comes to ReadFileSize with the n bytes in front of the first terminator in EXT, if bits 0 to 50 pass their
checks. -/
theorem hdrgetBody_terminated {s : State} {n : Nat} (h : ExtensionRuns n s)
    (hspan : spanFits 0 (59 + 8 * n) (atFrameWidth s)) (hterm : frameField (51 + 8 * n) 8 s = terminator) :
    ∃ t, hdrgetBody s = readFileSize (59 + 8 * n) t ∧ TookExtension n s t ∧
      t = { gotDimensions s with
            phase := .extension, ext := t.ext, extlen := .ofNat 8 n, bitpos := .ofNat 32 (59 + 8 * n) } := by
  obtain ⟨hdim, hn, -, hbytes⟩ := h
  have hstart : OnFrame s { gotDimensions s with phase := .extension, extlen := 0 } := ⟨rfl, rfl, rfl, rfl⟩
  have hend : 51 + 8 * n + 8 = 59 + 8 * n := by omega
  obtain ⟨t, hrun, ht, hin, hout⟩ := scanExtension_ok (room := Config.extMax) hstart hn (by simpa using hn)
    (spanFits_part hspan (by omega) (by omega)) hbytes hterm
  rw [hend] at hrun ht
  refine ⟨t, ?_, ⟨fun j hj => ?_, fun j hj => ?_⟩, ?_⟩
  · refine bind_of_ok (readBootstrap_ok hdim.1) ?_
    refine bind_of_ok (readWidthHeight_ok hdim) ?_
    exact bind_of_ok hrun rfl
  · simpa using hin j hj
  · exact hout j (.inr (by simpa using hj))
  · rw [← BitVec.zero_add (BitVec.ofNat 8 n)]
    exact ht

/-- Everything ReadFileSize can answer when its 40 bits are on the carrier (check 9). -/
theorem readFileSize_cases {s u : State} {k : Nat} (h : OnFrame s u) (hspan : spanFits k 40 (atFrameWidth s)) :
    (frameField (k + 32) 8 s = sep ∧ readFileSize k u = .ok { u with
      phase := .hdrDone, filesz := BitVec.ofNat 32 (frameField k 32 s), bitpos := BitVec.ofNat 32 (k + 40)
      hdrsz := BitVec.ofNat 11 (k + 40) }) ∨
    (frameField (k + 32) 8 s ≠ sep ∧
      readFileSize k u = .error (raise .corruptedHeader 8 (frameField (k + 32) 8 s) { u with
        phase := .fileSize, filesz := BitVec.ofNat 32 (frameField k 32 s), bitpos := BitVec.ofNat 32 (k + 40) })) := by
  have hfield : getField k 32 { u with phase := .fileSize } = .ok (frameField k 32 s) :=
    OnFrame.getField ⟨h.pix, h.imgw, h.imgh, h.lsbw⟩ (spanFits_part hspan (by decide) (by omega))
  have hframe : OnFrame s { u with
      phase := .fileSize, filesz := BitVec.ofNat 32 (frameField k 32 s), bitpos := BitVec.ofNat 32 (k + 32) } :=
    ⟨h.pix, h.imgw, h.imgh, h.lsbw⟩
  have hpart : spanFits (k + 32) 8 (atFrameWidth s) := spanFits_part hspan (by decide) (by omega)
  by_cases hsep : frameField (k + 32) 8 s = sep
  · exact .inl ⟨hsep, bind_of_ok hfield (bind_of_ok (hframe.readSeparator_ok 8 hpart hsep) rfl)⟩
  · exact .inr ⟨hsep, bind_of_ok hfield (bind_of_error (hframe.readSeparator_bad 8 hpart hsep))⟩

end Sys2Proof.Machine
end

section
/-! O54: the terminator hazard (spec 30_encoding.md rule R126). `Carries` says which bits stand on a carrier from
logical bit 0 on; EMBED makes the carrier carry the frame, and HDRGET finds in it the fields of the header's layout. -/

open Sys2Proof Sys2Proof.Machine

namespace Sys2Proof.Machine

/-! ### The bits on a carrier -/

/-- The carrier of v holds the bits l under width w, from logical bit 0 on, whatever LSBW is. -/
structure Carries (l : Bits) (w : BitVec 3) (v : State) : Prop where
  fits : spanFits 0 l.length { v with lsbw := w }
  bits : readBits 0 l.length { v with lsbw := w } = l

theorem carries_writeBits {s v : State} {l : Bits} (h : spanFits 0 l.length s) (hp : v.pix = (writeBits 0 l s).pix)
    (hw : v.imgw = s.imgw) (hh : v.imgh = s.imgh) : Carries l s.lsbw v where
  fits := (spanFits_congr (s := s) (t := { v with lsbw := s.lsbw }) hw hh rfl 0 l.length).2 h
  bits := by
    rw [readBits_congr (s := writeBits 0 l s) (t := { v with lsbw := s.lsbw }) hp (hw.trans (writeBits_imgw 0 l s).symm)
      (writeBits_lsbw 0 l s).symm]
    exact readBits_writeBits fun _ => h

theorem Carries.readField {l : Bits} {w : BitVec 3} {v : State} {k b : Nat} (h : Carries l w v)
    (hle : k + b ≤ l.length) : readField k b { v with lsbw := w } = fieldAt l k b := by
  rw [Machine.readField, readBits_part _ hle, h.bits, fieldAt]

/-- Logical bits 0 to 4 do not depend on the width. -/
theorem readField_bootstrap {k b : Nat} (w : BitVec 3) (v : State) (hle : k + b ≤ 5) :
    readField k b { v with lsbw := w } = readField k b v := by
  refine congrArg fieldval (List.map_congr_left fun j hj => ?_)
  have hj : j < b := List.mem_range.1 hj
  have hk : k + j ≤ 4 := by omega
  simp only [readBit, translate_of_le _ hk]
  rfl

/-- The frame's own width is the one it is read with. -/
theorem Carries.atFrameWidth {l : Bits} {w : BitVec 3} {v : State} (h : Carries l w v) (hlen : 5 ≤ l.length)
    (hw : fieldAt l 2 3 = w.toNat) : atFrameWidth v = { v with lsbw := w } := by
  rw [Machine.atFrameWidth, ← readField_bootstrap w v (by decide), h.readField hlen, hw, BitVec.ofNat_toNat,
    BitVec.setWidth_eq]

theorem Carries.carLen {l : Bits} {w : BitVec 3} {v : State} (h : Carries l w v) (hlen : 5 ≤ l.length) :
    5 ≤ carLen v := by
  have hmono := translate_fst_mono (k := 4) (l := 0 + l.length - 1) w.toNat (by omega)
  rw [translate_of_le _ (Nat.le_refl 4)] at hmono
  exact Nat.lt_of_le_of_lt hmono h.fits.2

/-! ### A header on a carrier -/

section
variable {v : State} {w : BitVec 3} {e : List Byte} {f : Nat} {p : Bits}

/-- The frame of a header for v's image, with extension e, and of what follows it. -/
def frameOf (w : BitVec 3) (e : List Byte) (f : Nat) (p : Bits) (v : State) : Bits :=
  serialize w.toNat v.imgw.toNat v.imgh.toNat e f ++ p

theorem frameOf_length_ge (w : BitVec 3) (e : List Byte) (f : Nat) (p : Bits) (v : State) :
    99 + 8 * e.length ≤ (frameOf w e f p v).length := by
  rw [frameOf, List.length_append, serialize_length]
  omega

theorem Carries.frame_atFrameWidth (h : Carries (frameOf w e f p v) w v) :
    Machine.atFrameWidth v = { v with lsbw := w } := by
  have hlen := frameOf_length_ge w e f p v
  obtain ⟨-, hw, -⟩ := serialize_front_fields (e := e) (f := f) (l := p) w.isLt v.imgw.isLt v.imgh.isLt
  exact h.atFrameWidth (by omega) hw

theorem Carries.frameField (h : Carries (frameOf w e f p v) w v) {k b : Nat} (hle : k + b ≤ 99 + 8 * e.length) :
    frameField k b v = fieldAt (frameOf w e f p v) k b := by
  rw [Machine.frameField, h.frame_atFrameWidth, h.readField (hle.trans (frameOf_length_ge w e f p v))]

theorem Carries.spanFits (h : Carries (frameOf w e f p v) w v) {k b : Nat} (hb : 0 < b)
    (hle : k + b ≤ 99 + 8 * e.length) : spanFits k b (Machine.atFrameWidth v) := by
  have hlen := frameOf_length_ge w e f p v
  rw [h.frame_atFrameWidth]
  exact spanFits_part h.fits hb (by omega)

theorem Carries.dimensionsOk (h : Carries (frameOf w e f p v) w v) (hw : w ≠ 0) : DimensionsOk v := by
  have hlen := frameOf_length_ge w e f p v
  obtain ⟨hcode, hwidth, hsep1, himgw, hsep2, himgh, hsep3⟩ :=
    serialize_front_fields (e := e) (f := f) (l := p) w.isLt v.imgw.isLt v.imgh.isLt
  have hboot : ∀ k b, k + b ≤ 5 → Machine.readField k b v = fieldAt (frameOf w e f p v) k b := fun k b hle => by
    rw [← readField_bootstrap w v hle, h.readField (by omega)]
  refine ⟨⟨h.carLen (by omega), (hboot 0 2 (by decide)).trans hcode, ?_⟩, h.spanFits (by decide) (by omega),
    (h.frameField (by omega)).trans hsep1, (h.frameField (by omega)).trans hsep2,
    (h.frameField (by omega)).trans hsep3, (h.frameField (by omega)).trans himgw,
    (h.frameField (by omega)).trans himgh⟩
  rw [hboot 2 3 (by decide), frameOf, hwidth]
  exact fun h0 => hw (BitVec.eq_of_toNat_eq h0)

theorem Carries.extensionByte (h : Carries (frameOf w e f p v) w v) {j : Nat} (hj : j < e.length) :
    Machine.frameField (51 + 8 * j) 8 v = e[j].toNat :=
  (h.frameField (by omega)).trans (serialize_extension_byte hj)

theorem Carries.extensionRuns (h : Carries (frameOf w e f p v) w v) (hw : w ≠ 0) {n : Nat} (hn : n ≤ e.length)
    (hmax : n ≤ 243) (hbytes : ∀ j (hj : j < n), e[j] ≠ 0x0A) : ExtensionRuns n v := by
  refine ⟨h.dimensionsOk hw, hmax, ?_, fun j hj h0 => hbytes j hj ?_⟩
  · rcases Nat.eq_zero_or_pos n with hn0 | hpos
    · exact .inl hn0
    · exact .inr (h.spanFits (by omega) (by omega))
  · exact BitVec.eq_of_toNat_eq ((h.extensionByte (by omega)).symm.trans h0)

end

/-! ### EMBED (rule R280) -/

theorem headerBits_builtHeader (s : State) : headerBits (builtHeader s) = inputHeader s := by
  rw [headerBits, builtHeader_filesz_toNat, inputHeader]
  rfl

theorem payloadBits_eq (s : State) : payloadBits s = inputPayload s := rfl

theorem headerBits_plan (n : Nat) (s : State) : headerBits (plan n s) = headerBits s := rfl

theorem extBytes_length {s : State} (h : s.extlen.toNat ≤ 243) : (extBytes s).length = s.extlen.toNat := by
  simpa [extBytes] using h

theorem extBytes_getElem {s : State} {j : Nat} (h : j < (extBytes s).length) : (extBytes s)[j] = extRead j s := by
  have hj : j < 243 := by
    simp only [extBytes, List.length_take, Vector.length_toList] at h
    omega
  simp [extBytes, extRead, hj]

/-- An EMBED that comes to its end has a width for the whole frame, room for it, and its bits in PIX. -/
theorem embedBody_writesFrame (s : State) :
    Ends (fun t => s.extlen.toNat ≤ 243 ∧ spanFits 0 (inputHeader s ++ inputPayload s).length s ∧
      t.pix = (writeBits 0 (inputHeader s ++ inputPayload s) s).pix) (fun c _ _ => c ≠ .noFault) (embedBody s) := by
  refine (ends_buildHeader (by decide) (by decide)).bind fun _ ⟨ht, he⟩ => ?_
  subst ht
  refine (ends_require _ fun _ => by decide).bind fun _ _ => ?_
  refine (ends_require _ fun _ => by decide).bind fun _ _ => ?_
  refine (ends_checkSpan_write (fun _ _ => by decide) (by decide)).bind fun _ hfits => .done ⟨he, ?_, ?_⟩
  · have hlen := frame_length_eq_frameBits he
    rw [headerBits_builtHeader, payloadBits_eq] at hlen
    rw [← hlen] at hfits
    exact hfits
  · generalize frameBits (builtHeader s) = n
    show (writeBits 0 (headerBits (plan n (builtHeader s)) ++ payloadBits s) (plan n (builtHeader s))).pix = _
    rw [headerBits_plan, headerBits_builtHeader, payloadBits_eq]
    apply writeBits_pix_congr
    · exact (plan_pix n _).trans (builtHeader_pix s)
    · exact (plan_imgw n _).trans (builtHeader_imgw s)
    · exact (plan_lsbw n _).trans (builtHeader_lsbw s)

/-- After an EMBED that succeeds the carrier carries the frame of the inputs, on any block of the same dimensions. -/
theorem carries_embed {s t v : State} (hlive : Live s) (h : exec .embed s = .next t) (ht : Live t)
    (hp : v.pix = t.pix) (hw : v.imgw = s.imgw) (hh : v.imgh = s.imgh) :
    s.lsbw ≠ 0 ∧ s.extlen.toNat ≤ 243 ∧
      Carries (frameOf s.lsbw (extBytes s) (8 * s.paylen.toNat) (inputPayload s) v) s.lsbw v := by
  rw [exec_eq_command (by decide), command_live hlive, bodyOf] at h
  generalize hr : embedBody s = r at h
  cases hr ▸ embedBody_writesFrame s with
  | raised hc => cases h; exact absurd ht hc
  | done hdone =>
    cases h
    obtain ⟨he, hfits, hpix⟩ := hdone
    rw [frameOf, hw, hh]
    refine ⟨?_, he, carries_writeBits hfits (hp.trans hpix) hw hh⟩
    rcases hfits.1 with hshort | hwidth
    · have := serialize_length s.lsbw.toNat s.imgw.toNat s.imgh.toNat (extBytes s) (8 * s.paylen.toNat)
      rw [List.length_append, inputHeader] at hshort
      omega
    · exact hwidth

end Sys2Proof.Machine

/-- Settles O54: the carrier carries the frame, so HDRGET passes its checks up to the first terminator byte and reads
the 40 bits behind it, all of them bits of the frame, in ReadFileSize. -/
theorem terminatorInExtensionEndsItEarly : Obligations.TerminatorInExtensionEndsItEarly := by
  intro s t v j hlive hembed ht hj hterm hfirst hv hp hw hh
  obtain ⟨hwidth, he, hcarries⟩ := carries_embed hlive hembed ht hp hw hh
  have hlen := extBytes_length he
  have hbyte : ∀ i, i ≤ j → frameField (51 + 8 * i) 8 v = (extRead i s).toNat := fun i hi => by
    rw [hcarries.extensionByte (by omega), extBytes_getElem]
  have hruns : ExtensionRuns j v := hcarries.extensionRuns hwidth (by omega) (by omega) fun i hi => by
    rw [extBytes_getElem]
    exact hfirst i hi
  obtain ⟨u, hrun, ⟨hext, -⟩, hu⟩ := hdrgetBody_terminated hruns (hcarries.spanFits (by omega) (by omega))
    (by rw [hbyte j (Nat.le_refl j), hterm]; rfl)
  have hframe : OnFrame v u := by
    rw [hu]
    exact ⟨rfl, rfl, rfl, rfl⟩
  have hfault : u.fault = .noFault := by
    rw [hu]
    exact hv
  have hextlen : u.extlen.toNat = j := by
    rw [hu]
    exact Nat.mod_eq_of_lt (by omega)
  have hstored : ∀ i, i < j → extRead i u = extRead i s := fun i hi => by
    rw [hext i hi, hbyte i (Nat.le_of_lt hi), BitVec.ofNat_toNat, BitVec.setWidth_eq]
  rw [exec_eq_command (by decide), command_live hv, bodyOf, hrun]
  rcases readFileSize_cases (k := 59 + 8 * j) hframe (hcarries.spanFits (by decide) (by omega)) with
    ⟨-, hend⟩ | ⟨-, hend⟩
  · rw [hend]
    exact ⟨_, rfl, hextlen, hstored, .inl ⟨hfault, rfl⟩⟩
  · rw [hend]
    exact ⟨_, rfl, hextlen, hstored, .inr ⟨rfl, rfl⟩⟩
end

section
/-! The bus map, and the statements of O5, O6, O7, O9, O11 about the step, the register accesses, RESET and NOP
(spec 10_state.md rules R21, R30, 40_system.md rules R140 to R146). -/

open Sys2Proof Sys2Proof.Machine

namespace Sys2Proof.Machine

/-! ### The bus map (rule R21) -/

theorem lowRegs_index : lowRegs.map Reg.index = List.range 27 := rfl

theorem regAt_eq_some {n : Nat} {r : Reg} : regAt n = some r ↔ n = r.index := by
  constructor
  · intro h
    unfold regAt at h
    split at h
    · cases h
      simp only [Reg.index]
      omega
    · have hindex : (List.range 27)[n]? = some r.index := by rw [← lowRegs_index, List.getElem?_map, h]; rfl
      obtain ⟨_, hval⟩ := List.getElem?_eq_some_iff.1 hindex
      rwa [List.getElem_range] at hval
  · rintro rfl
    cases r with
    | ext j => exact regAt_ext j.isLt
    | _ => rfl

theorem regAt_eq_none {n : Nat} (h : (0x01B ≤ n ∧ n < 0x100) ∨ 0x1F3 ≤ n) : regAt n = none := by
  rw [regAt, dif_neg (by omega)]
  exact List.getElem?_eq_none (show 27 ≤ n by omega)

theorem Reg.index_lt (r : Reg) : r.index < 2 ^ 12 := by
  cases r with
  | ext j => simp only [Reg.index]; omega
  | _ => decide

/-- Every register's index fits the 12 bits of a bus index. -/
theorem regAt_ofNat_index (r : Reg) : regAt (BitVec.ofNat 12 r.index).toNat = some r :=
  regAt_eq_some.2 (Nat.mod_eq_of_lt r.index_lt)

/-! ### Reading a register (rule R140) -/

theorem extRead_eq_getElem {j : Nat} (h : j < 243) (s : State) : extRead j s = s.ext[j] := by
  rw [extRead, List.getD_eq_getElem _ _ (by simpa using h), Vector.getElem_toList]

theorem append_toNat {m n : Nat} (x : BitVec m) (y : BitVec n) : (x ++ y).toNat = x.toNat * 2 ^ n + y.toNat := by
  rw [BitVec.toNat_append, ← Nat.shiftLeft_add_eq_or_of_lt y.isLt, Nat.shiftLeft_eq]

theorem FaultCode.code_lt (c : FaultCode) : c.code < 2 ^ 4 := by cases c <;> decide

theorem Phase.code_lt (p : Phase) : p.code < 2 ^ 3 := by cases p <;> decide

/-- The fields of STATUS stand side by side (rule R30). -/
theorem statusView_toNat (s : State) : (statusView s).toNat =
    s.fault.code + 16 * s.subcause.toNat + 256 * s.phase.code + 2048 * s.fits.toNat + 4096 * s.xvalid.toNat := by
  simp only [statusView, append_toNat, BitVec.toNat_ofBool, BitVec.toNat_ofNat, Nat.mod_eq_of_lt s.fault.code_lt,
    Nat.mod_eq_of_lt s.phase.code_lt]
  omega

theorem carLen_lt (s : State) : carLen s < 2 ^ 64 := Nat.lt_of_le_of_lt (carLen_le s) (by decide)

theorem readIndex_congr {s t : State} (h : ∀ r, readReg r s = readReg r t) (index : BitVec 12) :
    readIndex index s = readIndex index t := by
  unfold readIndex
  cases regAt index.toNat with
  | none => rfl
  | some r => exact h r

theorem readIndex_unmapped {index : BitVec 12} (h : regAt index.toNat = none) (s : State) : readIndex index s = 0 := by
  rw [readIndex, h]

theorem readIndex_ofNat_index (r : Reg) (s : State) : readIndex (BitVec.ofNat 12 r.index) s = readReg r s := by
  rw [readIndex, regAt_ofNat_index]

/-- The value read of a register of at most 64 bits is the register's number. -/
theorem readIndex_toNat_of_setWidth (r : Reg) {n : Nat} {v : BitVec n} {s : State} (hr : readReg r s = v.setWidth 64)
    (hn : n ≤ 64) : (readIndex (BitVec.ofNat 12 r.index) s).toNat = v.toNat := by
  rw [readIndex_ofNat_index, hr, BitVec.toNat_setWidth_of_le hn]

/-- The moves still to come are behind no register. -/
theorem readIndex_pending (index : BitVec 12) (s : State) (rest : List HostMove) :
    readIndex index { s with pending := rest } = readIndex index s :=
  readIndex_congr (fun r => by cases r <;> rfl) index

theorem step_rd {s : State} {index : BitVec 12} {rest : List HostMove} (hp : s.pending = .bus (.rd index) :: rest) :
    step s = .next { s with pending := rest, returned := some (readIndex index s) } := by
  rw [step_cons hp, hostMove, transact, readIndex_pending]

/-! ### Writing a register (rule R141) -/

theorem step_wr {s : State} {index : BitVec 12} {data : BitVec 64} {rest : List HostMove}
    (hp : s.pending = .bus (.wr index data) :: rest) (hindex : index ≠ 0) :
    step s = .next (writeIndex index data { s with pending := rest }) := by
  rw [step_cons hp, hostMove, transact, if_neg hindex]

theorem writeIndex_faulted {s : State} (h : ¬ Live s) (index : BitVec 12) (data : BitVec 64) :
    writeIndex index data s = s := if_neg h

theorem writeIndex_unmapped {index : BitVec 12} (h : regAt index.toNat = none) (data : BitVec 64) (s : State) :
    writeIndex index data s = s := by
  rw [writeIndex, h]
  exact ite_self s

theorem extWrite_eq_set {j : Nat} (h : j < 243) (v : Byte) (s : State) :
    extWrite j v s = { s with ext := s.ext.set j v h } := by
  have hset : s.ext.setIfInBounds j v = s.ext.set j v h :=
    Vector.ext fun i hi => by rw [Vector.getElem_setIfInBounds, Vector.getElem_set]
  rw [extWrite, hset]

/-- Nothing is stored in a register whose index is neither that of an RW register nor that of an EXT byte. -/
theorem writeReg_readOnly {r : Reg} (hlow : r.index ∉ [3, 4, 5, 6, 7, 8, 9, 10, 0x013, 0x014, 0x015])
    (hext : ¬ (0x100 ≤ r.index ∧ r.index < 0x1F3)) (data : BitVec 64) (s : State) : writeReg r data s = s := by
  cases r with
  | imgw | imgh | lsbw | bitpos | idx | data | paylen | extlen | xx | xy | xch => exact absurd (by decide) hlow
  | ext j => exact absurd ⟨Nat.le_add_right _ _, Nat.add_lt_add_left j.isLt _⟩ hext
  | _ => rfl

/-! ### Commands (rules R143, R145, R146) -/

theorem step_command {s : State} {data : BitVec 64} {i : Instr} {rest : List HostMove}
    (hp : s.pending = .bus (.wr 0 data) :: rest) (hd : decode data = .ok i) :
    step s = exec i { s with pending := rest } := by
  rw [step_cons hp, hostMove, transact, if_pos rfl, writeCmd, hd]

theorem exec_faulted {i : Instr} {s : State} (hi : i ≠ .reset) (h : ¬ Live s) : exec i s = .next s := by
  rw [exec_eq_command hi, command_faulted h]

/-- RESET leaves every register as it is in the state after reset. -/
theorem readReg_resetRegs (r : Reg) (s : State) : readReg r (resetRegs s) = readReg r State.reset := by
  cases r <;> rfl

theorem readIndex_resetRegs (index : BitVec 12) (s : State) : readIndex index (resetRegs s) = 0 :=
  (readIndex_congr (fun r => readReg_resetRegs r s) index).trans (readIndex_reset index)

end Sys2Proof.Machine

/-- Settles O6: the register at each index by the bus map, and its value (`readIndex_toNat_of_setWidth`). -/
theorem registerReadsGiveTheirValues : Obligations.RegisterReadsGiveTheirValues := by
  intro s
  have value (r : Reg) {n : Nat} {v : BitVec n} (hr : readReg r s = v.setWidth 64 := by rfl)
      (hn : n ≤ 64 := by decide) : (readIndex (BitVec.ofNat 12 r.index) s).toNat = v.toNat :=
    readIndex_toNat_of_setWidth r hr hn
  have hnbytes : (readIndex (BitVec.ofNat 12 Reg.nbytes.index) s).toNat = carLen s := by
    rw [readIndex_ofNat_index]
    exact Nat.mod_eq_of_lt (carLen_lt s)
  exact ⟨fun _ _ => step_rd, readIndex_ofNat_index .cmd s, (value .status).trans (statusView_toNat s),
    readIndex_ofNat_index .finfo s, value .imgw, value .imgh, value .lsbw, value .bitpos, value .idx, value .data,
    value .paylen, value .extlen, value .hcode, value .hwidth, value .hheight, value .filesz, value .hdrsz,
    value .xbyte, value .xbit, value .xpix, value .xx, value .xy, value .xch, value .capneed, value .defbits,
    value .defbytes, value .defpix, hnbytes,
    fun j h => value (.ext ⟨j, h⟩) (congrArg (·.setWidth 64) (extRead_eq_getElem h s)),
    fun _ h => readIndex_unmapped (regAt_eq_none h) s⟩

/-- Settles O7: in a live state the step is `writeReg` of the register at the index, which stores the low bits of the
data, or does nothing for a register that is not RW (`writeReg_readOnly`). -/
theorem registerWritesKeepTheLowBits : Obligations.RegisterWritesKeepTheLowBits := by
  intro s index d rest hp hindex
  simp only [BitVec.ofNat_toNat]
  refine ⟨fun hfaulted => (step_wr hp hindex).trans (congrArg _ (writeIndex_faulted (by exact hfaulted) index d)),
    fun hlive => ?_⟩
  have write (r : Reg) (h : index = BitVec.ofNat 12 r.index) :
      step s = .next (writeReg r d { s with pending := rest }) :=
    step_writeReg hlive hp (h ▸ regAt_ofNat_index r) hindex
  refine ⟨write .imgw, write .imgh, write .lsbw, write .bitpos, write .idx, write .data, write .paylen, write .extlen,
    write .xx, write .xy, write .xch, fun j h hj => ?_, fun hlow hext => ?_⟩
  · rw [step_writeReg hlive hp (hj ▸ regAt_ext h) hindex, writeReg, extWrite_eq_set h]
  · cases hr : regAt index.toNat with
    | none => rw [step_wr hp hindex, writeIndex_unmapped hr]
    | some r =>
      rw [regAt_eq_some.1 hr] at hlow hext
      rw [step_writeReg hlive hp hr hindex, writeReg_readOnly hlow hext]

/-- Settles O9: RESET is `resetRegs`, the one command that is not behind the test of FAULT. -/
theorem resetClearsEveryRegister : Obligations.ResetClearsEveryRegister :=
  ⟨rfl, fun s => ⟨⟨resetRegs s, exec_reset s, rfl, (readIndex_resetRegs · s), rfl⟩, fun _ => exec_faulted,
    fun _ hp => step_cons hp⟩⟩

/-- Settles O5: a write to CMD is handed to the decoder (`step_command`). -/
theorem stepRunsTheDecodedCommand : Obligations.StepRunsTheDecodedCommand := fun _ _ _ _ => step_command

/-- Settles O11: in a live state NOP's body is empty, in a faulted one it is refused as every command is. -/
theorem nopChangesNothing : Obligations.NopChangesNothing := by
  refine ⟨rfl, fun s => ?_⟩
  by_cases hlive : Live s
  · exact command_live hlive
  · exact exec_faulted (by decide) hlive
end

section
/-! The commands of PCSF, and the statements of O17, O18, O19, O20 about FLAT, UNFLAT, CARRD and CARWR
(spec 41_flattener.md rules R162 to R165). UNFLAT, CARRD and CARWR are one test and then one assignment, so what each
does in a live state is `exec_of_require` where the test passes and `exec_of_require_not` where it raises. -/

open Sys2Proof Sys2Proof.Machine

namespace Sys2Proof.Machine

/-! ### A live command, by how its run ends -/

theorem exec_of_ok {i : Instr} {s t : State} (hi : i ≠ .reset) (hlive : Live s) (hrun : bodyOf i s = .ok t) :
    exec i s = .next t := by
  rw [exec_eq_command hi, command_live hlive, hrun, finalState_ok]

theorem exec_of_error {i : Instr} {s t : State} (hi : i ≠ .reset) (hlive : Live s) (hrun : bodyOf i s = .error t) :
    exec i s = .next t := by
  rw [exec_eq_command hi, command_live hlive, hrun, finalState_error]

section
variable {i : Instr} {s t : State} {p : Prop} [Decidable p] {c : FaultCode} {sub info : Nat} {f : Unit → Run State}

/-- A command whose first test passes does what stands behind the test. -/
theorem exec_of_require (hi : i ≠ .reset) (hlive : Live s) (hp : p)
    (hbody : bodyOf i s = require p c sub info s >>= f) (hf : f () = .ok t) : exec i s = .next t :=
  exec_of_ok hi hlive (hbody.trans (bind_of_ok (require_of hp c sub info s) hf))

/-- A command whose first test fails only writes the fault record. -/
theorem exec_of_require_not (hi : i ≠ .reset) (hlive : Live s) (hp : ¬ p)
    (hbody : bodyOf i s = require p c sub info s >>= f) : exec i s = .next (raise c sub info s) :=
  exec_of_error hi hlive (hbody.trans (bind_of_error (require_of_not hp c sub info s)))

end

/-! ### No register wraps -/

/-- The column and the row of a byte of the carrier fit XX and XY. -/
theorem colOf_rowOf_fit {s : State} {i : Nat} (h : i < carLen s) :
    colOf s.imgw.toNat i < 2 ^ 11 ∧ rowOf s.imgw.toNat i < 2 ^ 11 :=
  ⟨(colOf_lt (width_pos_of_lt h) i).trans s.imgw.isLt, (rowOf_lt h).trans s.imgh.isLt⟩

/-- The byte index of a cell of the grid fits IDX, since N is below 2^24. -/
theorem unflat_fits {s : State} {x y c : Nat} (hx : x < s.imgw.toNat) (hy : y < s.imgh.toNat) (hc : c ≤ 2) :
    unflat s.imgw.toNat x y c < 2 ^ 24 :=
  calc unflat s.imgw.toNat x y c < carLen s := unflat_lt hx hy hc
    _ ≤ 3 * 2047 * 2047 := carLen_le s
    _ < 2 ^ 24 := by decide

end Sys2Proof.Machine

/-- Settles O17: FLAT is `locate`, which raises nothing; inside the carrier column and row are within the grid. -/
theorem flatReportsTheCell : Obligations.FlatReportsTheCell := by
  refine ⟨rfl, fun s hlive => ⟨?_, colOf_rowOf_fit⟩⟩
  rw [exec_of_ok (by decide) hlive rfl, locate]
  simp only [inCarrier, decide_eq_true_eq]
  rfl

/-- Settles O18: the index UNFLAT stores is the one of a cell of the grid, so it does not wrap (`unflat_fits`). -/
theorem unflatGivesTheIndex : Obligations.UnflatGivesTheIndex := by
  refine ⟨rfl, fun s hlive => ⟨fun hx hy hc => ?_, fun hout => ?_⟩⟩
  · have hchan : s.xch.toNat ≤ 2 := by omega
    exact ⟨_, exec_of_require (by decide) hlive ⟨hx, hy, hc⟩ rfl rfl, Nat.mod_eq_of_lt (unflat_fits hx hy hchan)⟩
  · have hcell : ¬ (s.xx.toNat < s.imgw.toNat ∧ s.xy.toNat < s.imgh.toNat ∧ s.xch.toNat ≠ 3) := by omega
    exact exec_of_require_not (by decide) hlive hcell rfl

/-- Settles O19: inside the carrier the cell CARRD reads is `carKey`'s, the one of flat(IDX). -/
theorem carrdReadsOneByte : Obligations.CarrdReadsOneByte := by
  refine ⟨rfl, fun s hlive => ⟨fun hin => ?_, fun hout => ?_⟩⟩
  · rw [BitVec.ofNat_toNat]
    exact exec_of_require (by decide) hlive hin rfl rfl
  · exact exec_of_require_not (by decide) hlive (Nat.not_lt.2 hout) rfl

/-- Settles O20: CARWR is one `carWrite`, of which `pixByte_carWrite` says what every cell reads afterwards. -/
theorem carwrWritesOneByte : Obligations.CarwrWritesOneByte := by
  refine ⟨rfl, fun s hlive => ⟨fun hin => ?_, fun hout => ?_⟩⟩
  · refine ⟨_, exec_of_require (by decide) hlive hin rfl rfl, rfl, ?_, fun a ha => ?_⟩
    · rw [pixByte_carWrite, if_pos rfl, BitVec.ofNat_toNat]
    · rw [pixByte_carWrite, if_neg ha]
  · exact exec_of_require_not (by decide) hlive (Nat.not_lt.2 hout) rfl

end

section
/-! BAT, the bit-plane address translator (spec 42_translator_mux.md rules R180 to R190): O21, O22, O23, O24, O25. The
one fact about order is `translate_fst_mono`, the one about places `zonebase_translate`; the exact capacity rests on
`bytesexact_eq`. -/

open Sys2Proof Sys2Proof.Machine

namespace Sys2Proof.Machine

/-! ### translate and the zones (rules R180, R182) -/

theorem translate_of_ge {k : Nat} (w : Nat) (h : 5 ≤ k) : translate k w = (4 + (k - 4) / w, (k - 4) % w) := by
  rw [translate, if_neg (by omega), if_neg (by omega)]

theorem translate_eq (k w : Nat) :
    translate k w = (if k ≤ 4 then k else 4 + (k - 4) / w, if k ≤ 4 then 0 else (k - 4) % w) := by
  by_cases h : k ≤ 4
  · rw [translate_of_le w h, if_pos h, if_pos h]
  · rw [translate_of_ge w (by omega), if_neg h, if_neg h]

/-- The second line and the third agree on logical bit 4, so all bits from there on are one division. -/
theorem translate_four_add (m w : Nat) : translate (4 + m) w = (4 + m / w, m % w) := by
  cases m with
  | zero => rw [translate_of_le w (by decide), Nat.zero_div, Nat.zero_mod]
  | succ m => rw [translate_of_ge w (by omega), Nat.add_sub_cancel_left]

theorem ew_of_le {i : Nat} (w : Nat) (h : i ≤ 3) : ew i w = 1 := if_pos h

theorem ew_of_ge {i : Nat} (w : Nat) (h : 4 ≤ i) : ew i w = w := if_neg (by omega)

theorem zonebase_of_le {i : Nat} (w : Nat) (h : i ≤ 3) : zonebase i w = i := if_pos h

theorem zonebase_of_ge {i : Nat} (w : Nat) (h : 4 ≤ i) : zonebase i w = 4 + (i - 4) * w := if_neg (by omega)

/-- Position p of the zone of byte i is logical bit zonebase + p. -/
theorem translate_zonebase {i p w : Nat} (hp : p < ew i w) : translate (zonebase i w + p) w = (i, p) := by
  by_cases hi : i ≤ 3
  · rw [ew_of_le w hi] at hp
    obtain rfl : p = 0 := by omega
    rw [zonebase_of_le w hi, translate_of_le w (by omega), Nat.add_zero]
  · have hi : 4 ≤ i := by omega
    rw [ew_of_ge w hi] at hp
    rw [zonebase_of_ge w hi, Nat.add_assoc, translate_four_add, Nat.mul_comm,
      Nat.mul_add_div (Nat.zero_lt_of_lt hp), Nat.div_eq_of_lt hp, Nat.mul_add_mod, Nat.mod_eq_of_lt hp, Nat.add_zero,
      Nat.add_sub_cancel' hi]

theorem ew_pos {w : Nat} (i : Nat) (hw : 1 ≤ w) : 1 ≤ ew i w := by
  unfold ew
  split
  · exact Nat.le_refl 1
  · exact hw

theorem translate_snd_lt_ew {w : Nat} (k : Nat) (hw : 1 ≤ w) : (translate k w).2 < ew (translate k w).1 w :=
  (translate_inZone (.inr (Nat.ne_of_gt hw))).elim (fun h0 => h0 ▸ ew_pos _ hw) id

/-- In one byte a later logical bit stands at a higher position, since the two differ by their positions alone. -/
theorem translate_strictMono {k l : Nat} (w : Nat) (h : k < l) :
    (translate k w).1 < (translate l w).1 ∨
    ((translate k w).1 = (translate l w).1 ∧ (translate k w).2 < (translate l w).2) := by
  refine (Nat.lt_or_eq_of_le (translate_fst_mono w (Nat.le_of_lt h))).imp_right fun hbyte => ⟨hbyte, ?_⟩
  have hk := zonebase_translate k w
  have hl := zonebase_translate l w
  rw [← hbyte] at hl
  omega

/-! ### The exact capacity (rule R183) -/

theorem ceilDiv_le_iff {a w m : Nat} (hw : 1 ≤ w) : ceilDiv a w ≤ m ↔ a ≤ m * w := by
  rw [ceilDiv, ← Nat.lt_succ_iff, Nat.div_lt_iff_lt_mul hw, Nat.succ_mul]
  omega

theorem ceilDiv_succ {w : Nat} (m : Nat) (hw : 1 ≤ w) : ceilDiv (m + 1) w = m / w + 1 := by
  rw [ceilDiv, Nat.add_right_comm, Nat.add_sub_cancel, Nat.add_div_right m hw]

/-- The two formulas say the same: L bits take at most n bytes just when n bytes hold L bits. -/
theorem bytesexact_le_iff {l n w : Nat} (hw : 1 ≤ w) : bytesexact l w ≤ n ↔ l ≤ capbits n w := by
  have hceil := ceilDiv_le_iff (a := l - 4) (m := n - 4) hw
  have hpos : ceilDiv (l - 4) w ≤ 0 ↔ l - 4 ≤ 0 * w := ceilDiv_le_iff hw
  rw [bytesexact, capbits]
  generalize ceilDiv (l - 4) w = c at hceil hpos
  generalize (n - 4) * w = m at hceil
  split_ifs <;> omega

/-- A frame takes the bytes up to the one its last bit lies in. -/
theorem bytesexact_eq {l w : Nat} (hl : 1 ≤ l) (hw : 1 ≤ w) : bytesexact l w = 1 + (translate (l - 1) w).1 := by
  by_cases h : l ≤ 4
  · rw [bytesexact, if_pos h, translate_of_le w (by omega), Nat.add_sub_cancel' hl]
  · obtain ⟨m, rfl⟩ : ∃ m, l = 4 + m + 1 := ⟨l - 5, by omega⟩
    have hm : 4 + m + 1 - 4 = m + 1 := by omega
    rw [bytesexact, if_neg h, Nat.add_sub_cancel, translate_four_add, hm, ceilDiv_succ m hw]
    omega

end Sys2Proof.Machine

/-- Settles O21: the byte index does not fall (`translate_fst_mono`), and within a byte the position rises. -/
theorem translateIsStrictlyIncreasing : Obligations.TranslateIsStrictlyIncreasing :=
  ⟨fun _ w h => translate_of_le w h, fun _ w h => translate_of_ge w h, fun _ _ w _ _ h => translate_strictMono w h⟩

/-- Settles O22: `translate_zonebase` and `zonebase_translate` are the two directions. -/
theorem zonesInvertTranslate : Obligations.ZonesInvertTranslate := fun w hw _ =>
  ⟨fun _ hi => ⟨ew_of_le w hi, zonebase_of_le w hi⟩, fun _ hi => ⟨ew_of_ge w hi, zonebase_of_ge w hi⟩,
    fun _ _ => translate_zonebase, fun k => ⟨translate_snd_lt_ew k hw, zonebase_translate k w⟩⟩

/-- Settles O23: the gap is a linear fact for each of the seven widths, the rest `bytesexact_le_iff` and
`bytesexact_eq`. -/
theorem carrierCapacityIsExact : Obligations.CarrierCapacityIsExact := by
  intro w hw hw7
  have hbytes (l : Nat) (hl : 5 ≤ l) : bytesexact l w = 4 + (l - 4 + w - 1) / w := if_neg (by omega)
  refine ⟨fun n hn => if_pos hn, fun n hn => if_neg (by omega), fun l hl => if_pos hl, hbytes,
    fun l n => bytesexact_le_iff hw, fun l hl => bytesexact_eq hl hw, fun l hl => ?_⟩
  rw [hbytes l hl]
  interval_cases w <;> omega

namespace Sys2Proof.Machine

/-! ### CheckSpan (rule R185) -/

section
variable {k n : Nat} {s : State}

/-- What is up to the last place that needs no width, or has one, does not lack it. -/
theorem not_lacksWidth {m last : Nat} (hwidth : m ≤ last ∨ s.lsbw ≠ 0) : ¬ (last < m ∧ s.lsbw = 0) :=
  fun ⟨hlt, hw⟩ => hwidth.elim (Nat.not_le.2 hlt) (absurd hw)

theorem checkSpan_noWidth (kind : SpanKind) (hk : 5 ≤ k + n - 1) (hw : s.lsbw = 0) :
    checkSpan k n kind s = .error (raise .paramError 1 k s) := by
  rcases checkSpan_cases k n kind s with ⟨hfits, -⟩ | ⟨-, -, h⟩ | ⟨hwidth, -⟩
  · exact absurd ⟨hk, hw⟩ (not_lacksWidth hfits.1)
  · exact h
  · exact absurd ⟨hk, hw⟩ (not_lacksWidth hwidth)

/-- The state CheckSpan leaves when the last bit of the span is outside the carrier. -/
def spanOutside (k n : Nat) : SpanKind → State → State
  | .write, s => raise .carrierOverrun 0 ((translate (k + n - 1) s.lsbw.toNat).1 + 1 - carLen s) s
  | .read, s => raise .truncated s.phase.code k s

theorem checkSpan_outside (kind : SpanKind) (hwidth : k + n - 1 ≤ 4 ∨ s.lsbw ≠ 0)
    (hout : carLen s ≤ (translate (k + n - 1) s.lsbw.toNat).1) :
    checkSpan k n kind s = .error (spanOutside k n kind s) := by
  rcases checkSpan_cases k n kind s with ⟨hfits, -⟩ | ⟨hk, hw, -⟩ | ⟨-, -, h⟩
  · exact absurd hfits.2 (Nat.not_lt.2 hout)
  · exact absurd ⟨hk, hw⟩ (not_lacksWidth hwidth)
  · rw [h]; cases kind <;> rfl

theorem lsbw_pos (h : s.lsbw ≠ 0) : 1 ≤ s.lsbw.toNat :=
  Nat.one_le_iff_ne_zero.2 fun h0 => h (BitVec.eq_of_toNat_eq h0)

/-- With a width a span passes when its end is within the exact capacity. -/
theorem spanFits_iff (hn : 1 ≤ n) (hw : s.lsbw ≠ 0) : spanFits k n s ↔ k + n ≤ capbits (carLen s) s.lsbw.toNat := by
  rw [← bytesexact_le_iff (lsbw_pos hw), bytesexact_eq (by omega) (lsbw_pos hw), Nat.add_comm 1, Nat.succ_le_iff]
  exact and_iff_right (.inr hw)

/-- No bit of a span that passes stands at the carrier's own position 7. -/
theorem spanFits_position_le {j : Nat} (h : spanFits k n s) (hj : j < n) : (translate (k + j) s.lsbw.toNat).2 ≤ 6 :=
  translate_snd_le (Nat.le_of_lt_succ s.lsbw.isLt) (spanFits_width h hj)

end

end Sys2Proof.Machine

/-- Settles O24: the outcomes from `checkSpan_cases`, the guarantee from the order of `translate` (`spanFits_bit`). -/
theorem spanTestGuardsEveryBit : Obligations.SpanTestGuardsEveryBit := fun _ _ _ hn =>
  ⟨spanFits_iff hn, fun hfits _ hj => ⟨spanFits_bit hfits hj, spanFits_position_le hfits hj⟩,
    fun hfits kind => checkSpan_ok kind hfits, fun hk hw kind => checkSpan_noWidth kind hk hw,
    fun hwidth hout => ⟨checkSpan_outside .write hwidth hout, checkSpan_outside .read hwidth hout⟩⟩

/-- Settles O25: XLATE is one test, `translate` and FLAT's `locate`; the byte index is at most BITPOS, so it fits. -/
theorem xlateReportsTheCursor : Obligations.XlateReportsTheCursor := by
  refine ⟨rfl, fun s hlive => ⟨fun hwidth => ?_, fun hk hw => ?_⟩⟩
  · have htest : ¬ (needw s.bitpos.toNat = true ∧ s.lsbw = 0) := by
      rw [needw, decide_eq_true_eq]
      exact not_lacksWidth hwidth
    have hbyte := translate_fst_le s.bitpos.toNat s.lsbw.toNat
    have hpos := translate_snd_le (k := s.bitpos.toNat) (Nat.le_of_lt_succ s.lsbw.isLt)
      (hwidth.imp_right fun h => Nat.ne_of_gt (lsbw_pos h))
    have hexec := exec_of_require (i := .xlate) (by decide) hlive htest rfl rfl
    rw [translate_eq] at hbyte hpos hexec
    refine ⟨?_, Nat.lt_of_le_of_lt hbyte s.bitpos.isLt, Nat.lt_succ_of_le hpos⟩
    rw [hexec, locate]
    simp only [inCarrier, decide_eq_true_eq]
    rfl
  · exact exec_of_require_not (by decide) hlive (not_not.2 ⟨decide_eq_true hk, hw⟩) rfl
end

section
/-! LBM, the byte multiplexer, and WriteBits and ReadBits (spec 42_translator_mux.md rules R184, R186, R188): O26, O27,
O28. -/

open Sys2Proof Sys2Proof.Machine

namespace Sys2Proof.Machine

theorem maskByte_toNat {e : Nat} (he : e ≤ 8) : (maskByte e).toNat = 2 ^ e - 1 :=
  Nat.mod_eq_of_lt <|
    (Nat.sub_lt (Nat.two_pow_pos e) Nat.one_pos).trans_le (Nat.pow_le_pow_right (by decide) he)

theorem zoneext_toNat (orig : Byte) {e : Nat} (he : e ≤ 8) : (zoneext orig e).toNat = orig.toNat % 2 ^ e := by
  rw [zoneext, BitVec.toNat_and, maskByte_toNat he, Nat.and_two_pow_sub_one_eq_mod]

/-- What is extracted of a replaced zone is what is extracted of the data. -/
theorem zoneext_zoneins (orig d : Byte) (e : Nat) : zoneext (zoneins orig d e) e = zoneext d e := by
  refine BitVec.eq_of_getLsbD_eq fun p _ => ?_
  rw [zoneext, zoneext, BitVec.getLsbD_and, BitVec.getLsbD_and, zoneins_getLsbD, maskByte_getLsbD]
  by_cases hp : p < e
  · rw [if_pos hp]
  · simp [hp]

theorem bitext_bitins {orig : Byte} {p : Nat} (b : Bool) (hp : p < 8) : bitext (bitins orig p b) p = b := by
  rw [bitext, bitins_getLsbD, if_pos ⟨rfl, hp⟩]

/-- Replacing the positions of a zone one by one, from position 0 up, replaces the zone. -/
theorem foldl_bitins_eq_zoneins (orig d : Byte) (e : Nat) :
    (List.range e).foldl (fun o p => bitins o p (bitext d p)) orig = zoneins orig d e := by
  induction e with
  | zero => exact BitVec.eq_of_getLsbD_eq fun p _ => by rw [zoneins_getLsbD, if_neg (Nat.not_lt_zero p)]; rfl
  | succ e ih =>
    rw [List.range_succ, List.foldl_append, ih, List.foldl_cons, List.foldl_nil]
    refine BitVec.eq_of_getLsbD_eq fun p hp => ?_
    rw [bitins_getLsbD, zoneins_getLsbD, zoneins_getLsbD]
    rcases Nat.lt_trichotomy p e with hlt | rfl | hgt
    · rw [if_neg (by omega), if_pos hlt, if_pos (by omega)]
    · rw [if_pos ⟨rfl, hp⟩, if_pos (Nat.lt_succ_self p), bitext]
    · rw [if_neg (by omega), if_neg (by omega), if_neg (by omega)]

/-- A list as the statements about WriteBits have it is empty or has a span that passes. -/
theorem spanFits_of_nil_or {k : Nat} {l : Bits} {s : State} (h : l = [] ∨ spanFits k l.length s) :
    0 < l.length → spanFits k l.length s := fun hpos =>
  h.resolve_left (List.ne_nil_of_length_pos hpos)

end Sys2Proof.Machine

/-- Settles O26: each clause is one of the lemmas on the bits of `zoneins`, `zoneext` and `bitins`. -/
theorem multiplexerKeepsTheCarrierZone : Obligations.MultiplexerKeepsTheCarrierZone := by
  intro orig d e _ he
  refine ⟨fun p hp => ?_, fun p hp => ?_, zoneext_toNat orig (by omega), ?_,
    fun p b hp => ⟨bitext_bitins b (by omega), fun q hq => ?_⟩, foldl_bitins_eq_zoneins orig d e⟩
  · rw [zoneins_getLsbD, if_neg (Nat.not_lt.2 hp)]
  · rw [zoneins_getLsbD, if_pos hp]
  · rw [zoneext_zoneins, zoneext_toNat d (by omega)]
  · rw [bitins_getLsbD, if_neg fun h => hq h.1]

/-- Settles O27: `writeBits_eq` is the frame of the state, `wroteBits_writeBits` what becomes of PIX. -/
theorem writeBitsChangesExactlyItsCells : Obligations.WriteBitsChangesExactlyItsCells := fun k l s h =>
  ⟨writeBits_eq k l s, wroteBits_writeBits (spanFits_of_nil_or h)⟩

/-- Settles O28: each bit of the span is read where WriteBits put it. -/
theorem readBitsGivesWhatWriteBitsWrote : Obligations.ReadBitsGivesWhatWriteBitsWrote := fun _ _ _ h =>
  readBits_writeBits (spanFits_of_nil_or h)
end

section
/-! The zone commands and the bit cursor (spec 42_translator_mux.md rules R191, R192, R195 to R198): O29, O30, O31, O32.
A zone command is `checkZone` and one assignment; BITRD and FLDRD are `cursorRead`, BITWR and FLDWR `cursorWrite`. -/

open Sys2Proof Sys2Proof.Machine

namespace Sys2Proof.Machine

/-! ### The tests of ZONERD and ZONEWR (rules R191, R192) -/

section
variable {s : State}

theorem checkZone_ok (hwidth : s.idx.toNat ≤ 3 ∨ s.lsbw ≠ 0) (hin : s.idx.toNat < carLen s) :
    checkZone s = .ok () :=
  bind_of_ok (require_of (not_lacksWidth hwidth) _ _ _ _) (require_of hin _ _ _ _)

theorem checkZone_noWidth (hi : 4 ≤ s.idx.toNat) (hw : s.lsbw = 0) :
    checkZone s = .error (raise .paramError 1 s.idx.toNat s) :=
  bind_of_error (require_of_not (not_not.2 ⟨hi, hw⟩) _ _ _ _)

theorem checkZone_outside (hwidth : s.idx.toNat ≤ 3 ∨ s.lsbw ≠ 0) (hout : carLen s ≤ s.idx.toNat) :
    checkZone s = .error (raise .paramError 4 s.idx.toNat s) :=
  bind_of_ok (require_of (not_lacksWidth hwidth) _ _ _ _)
    (require_of_not (Nat.not_lt.2 hout) _ _ _ _)

theorem ew_le (i : Nat) (w : BitVec 3) : ew i w.toNat ≤ 7 := by
  unfold ew
  split
  · decide
  · exact Nat.le_of_lt_succ w.isLt

/-! ### ZONEWR is WriteField of the zone (rule R192) -/

/-- What WriteBits is said to have done determines every cell of PIX. -/
theorem WroteBits.pixByte_eq {k : Nat} {l : Bits} {t t' : State} (h : WroteBits k l s t) (h' : WroteBits k l s t')
    (a : Nat) : pixByte a t = pixByte a t' := by
  obtain ⟨hin, hout⟩ := h
  obtain ⟨hin', hout'⟩ := h'
  refine BitVec.eq_of_getLsbD_eq fun p _ => ?_
  by_cases hcell : ∃ j, j < l.length ∧ bitCell s (k + j) = (a, p)
  · obtain ⟨j, hj, hcell⟩ := hcell
    have hbit := (hin j hj).trans (hin' j hj).symm
    rwa [hcell] at hbit
  · have hother : ∀ j, j < l.length → bitCell s (k + j) ≠ (a, p) := fun j hj h => hcell ⟨j, hj, h⟩
    rw [hout a p hother, hout' a p hother]

/-- Logical bit zonebase + j lies at position j of the cell of byte i. -/
theorem bitCell_zonebase {i j : Nat} (hj : j < ew i s.lsbw.toNat) :
    bitCell s (zonebase i s.lsbw.toNat + j) = (carKey s.imgw.toNat i, j) := by
  rw [bitCell, translate_zonebase hj]

theorem spanFits_zone {i : Nat} (hwidth : i ≤ 3 ∨ s.lsbw ≠ 0) (hin : i < carLen s) :
    spanFits (zonebase i s.lsbw.toNat) (ew i s.lsbw.toNat) s := by
  have hpos : 1 ≤ ew i s.lsbw.toNat := by
    rcases hwidth with hi | hw
    · exact (ew_of_le _ hi).ge
    · exact ew_pos i (lsbw_pos hw)
  constructor
  · refine hwidth.imp_left fun hi => ?_
    rw [ew_of_le _ hi, zonebase_of_le _ hi]
    omega
  · rw [Nat.add_sub_assoc hpos, translate_zonebase (Nat.sub_lt hpos Nat.one_pos)]
    exact hin

/-- Replacing the payload zone of byte i writes the low bits of the data at the logical bits of the zone. -/
theorem wroteBits_zoneins {i : Nat} (v : Nat) :
    WroteBits (zonebase i s.lsbw.toNat) (fieldbits v (ew i s.lsbw.toNat)) s
      (carWrite i (zoneins (carRead i s) (BitVec.ofNat 8 v) (ew i s.lsbw.toNat)) s) := by
  have hew := ew_le i s.lsbw
  constructor
  · intro j hj
    rw [fieldbits_getElem hj]
    rw [fieldbits_length] at hj
    rw [bitCell_zonebase hj, pixByte_carWrite, if_pos rfl, zoneins_getLsbD, if_pos hj, BitVec.getLsbD_ofNat,
      decide_eq_true (by omega), Bool.true_and]
  · intro a p hother
    rw [pixByte_carWrite]
    split
    · next ha =>
      subst ha
      rw [zoneins_getLsbD, if_neg fun hp => hother p (by rwa [fieldbits_length]) (bitCell_zonebase hp)]
      rfl
    · rfl

/-! ### The bit cursor (rules R195 to R198) -/

/-- The largest carrier holds far fewer than 2^32 logical bits, so a cursor behind a span inside it does not wrap. -/
theorem spanFits_end_lt {k n : Nat} (h : spanFits k n s) : k + n < 2 ^ 32 := by
  have hlast := zonebase_translate (k + n - 1) s.lsbw.toNat
  have hpos := translate_snd_le (Nat.le_of_lt_succ s.lsbw.isLt)
    (h.1.imp_right fun hw => Nat.ne_of_gt (lsbw_pos hw))
  have hbyte := Nat.lt_of_lt_of_le h.2 (carLen_le s)
  have hbase (i : Nat) : zonebase i s.lsbw.toNat ≤ 4 + i * 7 := by
    have hmul := Nat.mul_le_mul (Nat.sub_le i 4) (Nat.le_of_lt_succ s.lsbw.isLt)
    unfold zonebase
    split <;> omega
  have := hbase (translate (k + n - 1) s.lsbw.toNat).1
  omega

/-- A register wide enough for a field holds its bits, and zeros above them (rule R121). -/
theorem ofNat_fieldval_getLsbD {l : Bits} {b : Nat} (h : l.length ≤ b) :
    (∀ j (hj : j < l.length), (BitVec.ofNat b (fieldval l)).getLsbD j = l[j]) ∧
    (∀ j, l.length ≤ j → (BitVec.ofNat b (fieldval l)).getLsbD j = false) := by
  constructor
  · intro j hj
    have hbit : l[j] = (fieldval l).testBit j := by
      rw [← fieldbits_getElem (v := fieldval l) (b := l.length) (by rwa [fieldbits_length])]
      simp only [fieldbits_fieldval]
    rw [BitVec.getLsbD_ofNat, decide_eq_true (Nat.lt_of_lt_of_le hj h), Bool.true_and, hbit]
  · intro j hj
    rw [BitVec.getLsbD_ofNat, Nat.testBit_lt_two_pow ((fieldval_lt l).trans_le (Nat.pow_le_pow_right (by decide) hj)),
      Bool.and_false]

/-- The commands that read n bits at the cursor. -/
abbrev ReadsBits (i : Instr) (n : Nat) : Prop :=
  (i = .bitrd ∧ n = 1) ∨ (∃ c : BitVec 6, i = .fldrd c ∧ c.toNat = n ∧ 1 ≤ n ∧ n ≤ 32)

/-- The commands that write n bits at the cursor. -/
abbrev WritesBits (i : Instr) (n : Nat) : Prop :=
  (i = .bitwr ∧ n = 1) ∨ (∃ c : BitVec 6, i = .fldwr c ∧ c.toNat = n ∧ 1 ≤ n ∧ n ≤ 32)

theorem ReadsBits.bodyOf_eq {i : Instr} {n : Nat} (h : ReadsBits i n) :
    i ≠ .reset ∧ n ≤ 32 ∧ bodyOf i s = cursorRead n s := by
  rcases h with ⟨rfl, rfl⟩ | ⟨c, rfl, rfl, h1, h32⟩
  · exact ⟨by decide, by decide, rfl⟩
  · exact ⟨by simp, h32, bind_of_ok (require_of (decide_eq_true ⟨h1, h32⟩) _ _ _ _) rfl⟩

theorem WritesBits.bodyOf_eq {i : Instr} {n : Nat} (h : WritesBits i n) :
    i ≠ .reset ∧ bodyOf i s = cursorWrite n s := by
  rcases h with ⟨rfl, rfl⟩ | ⟨c, rfl, rfl, h1, h32⟩
  · exact ⟨by decide, rfl⟩
  · exact ⟨by simp, bind_of_ok (require_of (decide_eq_true ⟨h1, h32⟩) _ _ _ _) rfl⟩

end

/-- The word of a counted command: its OPC and its count above it (rule R103). -/
theorem decode_counted {i : Instr} {opc n : Nat} (hi : i.wellFormed = true) (hopc : (opcodeOf i).toNat = opc)
    (hcount : countOf i = BitVec.ofNat 6 n) (hn : n ≤ 32) : decode (BitVec.ofNat 64 (opc + 256 * n)) = .ok i := by
  have hword : (encode i).toNat = opc + 256 * n := by
    rw [encode_toNat, hopc, hcount, BitVec.toNat_ofNat, Nat.mod_eq_of_lt (by omega)]
  rw [decode_eq_ok, ← hword, BitVec.ofNat_toNat, BitVec.setWidth_eq]
  exact ⟨rfl, hi⟩

theorem countOk_ofNat {n : Nat} (h1 : 1 ≤ n) (h32 : n ≤ 32) : countOk (BitVec.ofNat 6 n) = true := by
  rw [countOk, BitVec.toNat_ofNat, Nat.mod_eq_of_lt (by omega)]
  exact decide_eq_true ⟨h1, h32⟩

end Sys2Proof.Machine

/-- Settles O29: behind `checkZone` ZONERD is `zoneext` of the byte, a remainder (`zoneext_toNat`). -/
theorem zonerdExtractsTheZone : Obligations.ZonerdExtractsTheZone := by
  refine ⟨rfl, fun s hlive => ⟨fun hwidth hin => ?_, fun hi hw => ?_, fun hwidth hout => ?_⟩⟩
  · have hvalue := zoneext_toNat (carRead s.idx.toNat s) (Nat.le_succ_of_le (ew_le s.idx.toNat s.lsbw))
    rw [exec_of_ok (by decide) hlive (bind_of_ok (checkZone_ok hwidth hin) rfl), ← BitVec.ofNat_toNat, hvalue]
    rfl
  · exact exec_of_error (by decide) hlive (bind_of_error (checkZone_noWidth hi hw))
  · exact exec_of_error (by decide) hlive (bind_of_error (checkZone_outside hwidth hout))

/-- Settles O30: ZONEWR and WriteField write the same bits (`wroteBits_zoneins`), which determines PIX. -/
theorem zonewrReplacesTheZone : Obligations.ZonewrReplacesTheZone := by
  refine ⟨rfl, fun s hlive => ⟨fun hwidth hin => ?_, fun hi hw => ?_, fun hwidth hout => ?_⟩⟩
  · refine ⟨_, exec_of_ok (by decide) hlive (bind_of_ok (checkZone_ok hwidth hin) rfl), rfl, fun p => ?_,
      fun a ha => ?_, fun a => ?_⟩
    · have hew := ew_le s.idx.toNat s.lsbw
      have hdata (hp : p < ew s.idx.toNat s.lsbw.toNat) : (s.data.setWidth 8).getLsbD p = s.data.getLsbD p := by
        rw [BitVec.getLsbD_setWidth, decide_eq_true (by omega), Bool.true_and]
      rw [pixByte_carWrite, if_pos rfl, zoneins_getLsbD]
      exact ite_congr rfl hdata fun _ => rfl
    · rw [pixByte_carWrite, if_neg ha]
    · rw [← BitVec.ofNat_toNat]
      refine (wroteBits_zoneins _).pixByte_eq (wroteBits_writeBits fun _ => ?_) a
      rw [fieldbits_length]
      exact spanFits_zone hwidth hin
  · exact exec_of_error (by decide) hlive (bind_of_error (checkZone_noWidth hi hw))
  · exact exec_of_error (by decide) hlive (bind_of_error (checkZone_outside hwidth hout))

/-- Settles O31: both commands are `cursorRead`, CheckSpan and then the field. -/
theorem cursorReadsAdvance : Obligations.CursorReadsAdvance := by
  refine ⟨rfl, fun n h1 h32 => decode_counted (countOk_ofNat h1 h32) rfl rfl h32, fun s i n hlive hi => ?_⟩
  obtain ⟨hreset, hn, hbody⟩ := ReadsBits.bodyOf_eq (s := s) hi
  refine ⟨fun hfits => ?_, fun hk hw => ?_, fun hwidth hout => ?_⟩
  · have hlen : (readBits s.bitpos.toNat n s).length = n := readBits_length _ _ _
    obtain ⟨hlow, hhigh⟩ := ofNat_fieldval_getLsbD (b := 32) (hlen.trans_le hn)
    rw [hlen] at hhigh
    refine ⟨_, exec_of_ok hreset hlive (hbody.trans (bind_of_ok (getField_ok hfits) rfl)), spanFits_end_lt hfits,
      fun j hj => ?_, hhigh⟩
    have hj := hlen.symm ▸ hj
    exact (hlow j hj).trans (getElem_readBits hj)
  · exact exec_of_error hreset hlive (hbody.trans (bind_of_error (bind_of_error (checkSpan_noWidth .read hk hw))))
  · exact exec_of_error hreset hlive (hbody.trans (bind_of_error (bind_of_error (checkSpan_outside .read hwidth hout))))

/-- Settles O32: both commands are `cursorWrite`, CheckSpan and then WriteBits over the span. -/
theorem cursorWritesAdvance : Obligations.CursorWritesAdvance := by
  refine ⟨rfl, fun n h1 h32 => decode_counted (countOk_ofNat h1 h32) rfl rfl h32, fun s i n hlive hi => ?_⟩
  obtain ⟨hreset, hbody⟩ := WritesBits.bodyOf_eq (s := s) hi
  refine ⟨fun hfits => ?_, fun hk hw => ?_, fun hwidth hout => ?_⟩
  · refine ⟨_, exec_of_ok hreset hlive (hbody.trans (bind_of_ok (checkSpan_ok .write hfits) rfl)), ?_,
      spanFits_end_lt hfits, ?_⟩
    · rw [writeField, writeBits_eq]
    · refine wroteBits_writeBits (l := fieldbits s.data.toNat n) fun _ => ?_
      rwa [fieldbits_length]
  · exact exec_of_error hreset hlive (hbody.trans (bind_of_error (checkSpan_noWidth .write hk hw)))
  · exact exec_of_error hreset hlive (hbody.trans (bind_of_error (checkSpan_outside .write hwidth hout)))
end

section
/-! The header codec: BuildHeader's faults, and the statements of O36, O37 about HDRBUILD and HDRPUT (spec 43_header.md
rules R220, R230). -/

open Sys2Proof Sys2Proof.Machine

namespace Sys2Proof.Machine

section
variable {s : State}

theorem buildHeader_noWidth (hw : s.lsbw = 0) : buildHeader s = .error (raise .paramError 1 0 s) :=
  bind_of_error (require_of_not (not_not.2 hw) _ _ _ _)

theorem buildHeader_longExtension (hw : s.lsbw ≠ 0) (he : 243 < s.extlen.toNat) :
    buildHeader s = .error (raise .paramError 2 s.extlen.toNat s) :=
  bind_of_ok (require_of hw _ _ _ _) (bind_of_error (require_of_not (Nat.not_le.2 he) _ _ _ _))

/-- A span from logical bit 0 on passes when the carrier has the bytes a frame of that length takes. -/
theorem spanFits_zero_iff {n : Nat} (hn : 1 ≤ n) (hw : s.lsbw ≠ 0) :
    spanFits 0 n s ↔ bytesexact n s.lsbw.toNat ≤ carLen s := by
  rw [spanFits_iff hn hw, Nat.zero_add, bytesexact_le_iff (lsbw_pos hw)]

/-- A write from logical bit 0 on that finds too few bytes reports how many are missing. -/
theorem checkSpan_zero_overrun {n : Nat} (hn : 1 ≤ n) (hw : s.lsbw ≠ 0)
    (hout : carLen s < bytesexact n s.lsbw.toNat) :
    checkSpan 0 n .write s = .error (raise .carrierOverrun 0 (bytesexact n s.lsbw.toNat - carLen s) s) := by
  have hlast : bytesexact n s.lsbw.toNat = (translate (0 + n - 1) s.lsbw.toNat).1 + 1 := by
    rw [bytesexact_eq hn (lsbw_pos hw), Nat.zero_add, Nat.add_comm]
  rw [hlast] at hout ⊢
  exact checkSpan_outside .write (.inr hw) (Nat.lt_succ_iff.1 hout)

theorem headerLen_pos (s : State) : 1 ≤ headerLen s := by
  rw [headerLen]
  omega

theorem inputHeader_length (he : s.extlen.toNat ≤ 243) : (inputHeader s).length = headerLen s := by
  rw [inputHeader, serialize_length, extBytes_length he, headerLen]

/-- HDRSZ as the cursor behind the header (rule R230). -/
theorem builtHeader_cursor (he : s.extlen.toNat ≤ 243) :
    (builtHeader s).hdrsz.setWidth 32 = BitVec.ofNat 32 (headerLen s) := by
  rw [← BitVec.ofNat_toNat, builtHeader_hdrsz_toNat he, headerLen]

end

end Sys2Proof.Machine

/-- Settles O36: HDRBUILD is BuildHeader, and neither FILESZ nor HDRSZ wraps. -/
theorem hdrbuildBuildsTheHeader : Obligations.HdrbuildBuildsTheHeader := by
  refine ⟨rfl, fun s hlive => ⟨fun hw he => ?_, fun hw => ?_, fun hw he => ?_⟩⟩
  · exact ⟨_, _, exec_of_ok (by decide) hlive (buildHeader_ok hw he), builtHeader_filesz_toNat s,
      builtHeader_hdrsz_toNat he⟩
  · exact exec_of_error (by decide) hlive (buildHeader_noWidth hw)
  · exact exec_of_error (by decide) hlive (buildHeader_longExtension hw he)

/-- Settles O37: behind BuildHeader HDRPUT is the span test of the whole header and one WriteBits. -/
theorem hdrputWritesTheHeader : Obligations.HdrputWritesTheHeader := by
  refine ⟨rfl, fun s hlive => ⟨fun hw he => ⟨fun hroom => ?_, fun hshort => ?_⟩, fun hw => ?_, fun hw he => ?_⟩⟩
  · have hfits : spanFits 0 (headerLen s) s := (spanFits_zero_iff (headerLen_pos s) hw).2 hroom
    have hcheck : checkSpan 0 (builtHeader s).hdrsz.toNat .write (builtHeader s) = .ok () := by
      rw [builtHeader_hdrsz_toNat he]
      exact checkSpan_ok .write hfits
    refine ⟨_, exec_of_ok (by decide) hlive (bind_of_ok (buildHeader_ok hw he) (bind_of_ok hcheck rfl)), ?_, ?_⟩
    · rw [builtHeader_cursor he, writeBits_eq]
    · have hwrote := wroteBits_writeBits (s := builtHeader s) (k := 0) (l := inputHeader s) fun _ => by
        rw [inputHeader_length he]
        exact hfits
      rw [headerBits_builtHeader]
      generalize inputHeader s = l at hwrote ⊢
      exact hwrote
  · have hcheck := checkSpan_zero_overrun (s := builtHeader s) (headerLen_pos s) hw hshort
    rw [headerLen, ← builtHeader_hdrsz_toNat he] at hcheck
    rw [exec_of_error (by decide) hlive (bind_of_ok (buildHeader_ok hw he) (bind_of_error hcheck)),
      builtHeader_hdrsz_toNat he]
    rfl
  · exact exec_of_error (by decide) hlive (bind_of_error (buildHeader_noWidth hw))
  · exact exec_of_error (by decide) hlive (bind_of_error (buildHeader_longExtension hw he))
end

section
/-! HDRGET, raise by raise, and the statements of O38, O39, O40, O41, O42 (spec 43_header.md rules R240, R241). `RunsTo`
follows the run of a command piece by piece: each piece that reaches its end moves it on, and the first that raises says
what the command leaves. -/

open Sys2Proof Sys2Proof.Machine

namespace Sys2Proof.Machine

/-! ### Following a run to its raise -/

/-- Command i from s is left with the run x: a raise that ends x ends the command. -/
def RunsTo {α : Type} (i : Instr) (s : State) (x : Run α) : Prop := ∀ u, x = .error u → exec i s = .next u

theorem runsTo_bodyOf {i : Instr} {s : State} (hi : i ≠ .reset) (hlive : Live s) : RunsTo i s (bodyOf i s) :=
  fun _ => exec_of_error hi hlive

section
variable {α β : Type} {i : Instr} {s : State} {x : Run α} {f : α → Run β}

/-- A raise in the first piece of the run ends the command. -/
theorem RunsTo.first (h : RunsTo i s (x >>= f)) : RunsTo i s x := fun u hx => h u (bind_of_error hx)

/-- When the first piece reaches its end, what stands behind it is left to run. -/
theorem RunsTo.behind {a : α} (h : RunsTo i s (x >>= f)) (hx : x = .ok a) : RunsTo i s (f a) :=
  fun u hf => h u (bind_of_ok hx hf)

/-- The first piece of the run raises: the command is left there. -/
theorem RunsTo.raised {u : State} (h : RunsTo i s (x >>= f)) (hx : x = .error u) : exec i s = .next u := h.first u hx

end

/-! ### Fields that are not on the carrier -/

theorem getField_outside {k b : Nat} {s : State} (hwidth : k + b - 1 ≤ 4 ∨ s.lsbw ≠ 0) (hout : ¬ spanFits k b s) :
    getField k b s = .error (raise .truncated s.phase.code k s) :=
  bind_of_error (checkSpan_outside .read hwidth (Nat.not_lt.1 fun hlt => hout ⟨hwidth, hlt⟩))

/-- Logical bits 0 to 4 lie one in a byte, whatever the width. -/
theorem spanFits_bootstrap_iff {k b : Nat} {s : State} (hpos : 0 < b) (hle : k + b ≤ 5) :
    spanFits k b s ↔ k + b ≤ carLen s := by
  have hlast : k + b - 1 ≤ 4 := by omega
  rw [spanFits, translate_of_le _ hlast]
  dsimp only
  omega

/-- The width of a frame whose bootstrap passes is a width. -/
theorem BootstrapOk.width_ne_zero {s : State} (h : BootstrapOk s) : (atFrameWidth s).lsbw ≠ 0 := by
  obtain ⟨-, -, hwidth⟩ := h
  intro h0
  have hmod : readField 2 3 s % 2 ^ 3 = 0 := (congrArg BitVec.toNat h0 :)
  rw [Nat.mod_eq_of_lt (readField_lt 2 3 s)] at hmod
  exact hwidth hmod

section
variable {s u : State} {k : Nat}

theorem OnFrame.getField_outside {b : Nat} (h : OnFrame s u) (hboot : BootstrapOk s)
    (hout : ¬ spanFits k b (atFrameWidth s)) : Machine.getField k b u = .error (raise .truncated u.phase.code k u) :=
  Machine.getField_outside (.inr (h.lsbw ▸ hboot.width_ne_zero)) fun hfits =>
    hout ((spanFits_congr (s := atFrameWidth s) h.imgw h.imgh h.lsbw k b).1 hfits)

theorem OnFrame.readSeparator_outside (sub : Nat) (h : OnFrame s u) (hboot : BootstrapOk s)
    (hout : ¬ spanFits k 8 (atFrameWidth s)) : readSeparator k sub u = .error (raise .truncated u.phase.code k u) :=
  bind_of_error (h.getField_outside hboot hout)

/-! ### The terminator scan -/

theorem scanExtension_outside (room : Nat) (h : OnFrame s u) (hboot : BootstrapOk s)
    (hout : ¬ spanFits k 8 (atFrameWidth s)) : scanExtension room k u = .error (raise .truncated u.phase.code k u) := by
  cases room with
  | zero => exact bind_of_error (h.getField_outside hboot hout)
  | succ room => exact bind_of_error (h.getField_outside hboot hout)

/-- With EXT full, a byte that is no terminator is one too many (check 8). -/
theorem scanExtension_full (h : OnFrame s u) (hspan : spanFits k 8 (atFrameWidth s))
    (hbyte : frameField k 8 s ≠ terminator) :
    scanExtension 0 k u = .error (raise .extTooLong 0 (k + 8) { u with bitpos := BitVec.ofNat 32 (k + 8) }) :=
  bind_of_ok (h.getField hspan) (bind_of_error (require_of_not hbyte _ _ _ _))

end

/-- The state of HDRGET's scan behind n extension bytes, with EXT as e. -/
def scanned (n : Nat) (e : Vector Byte 243) (s : State) : State :=
  { gotBootstrap s with
    phase := .extension, hwidth := s.imgw, hheight := s.imgh, extlen := BitVec.ofNat 8 n, ext := e
    bitpos := BitVec.ofNat 32 (51 + 8 * n) }

theorem scanned_onFrame (n : Nat) (e : Vector Byte 243) (s : State) : OnFrame s (scanned n e s) := ⟨rfl, rfl, rfl, rfl⟩

theorem tookByte_scanned {n : Nat} (b : Nat) (e : Vector Byte 243) (s : State) (hn : n < 243) :
    tookByte (51 + 8 * n) b (scanned n e s) = scanned (n + 1) (e.setIfInBounds n (BitVec.ofNat 8 b)) s := by
  have hlen : (BitVec.ofNat 8 n).toNat = n := Nat.mod_eq_of_lt (by omega)
  have hnext : BitVec.ofNat 8 n + 1 = BitVec.ofNat 8 (n + 1) := (BitVec.ofNat_add n 1).symm
  simp only [tookByte, scanned, extWrite, hlen, hnext, Nat.mul_succ, Nat.add_assoc]

/-- One extension byte less, and the byte that is then the next. -/
theorem ExtensionRuns.pred {n : Nat} {s : State} (h : ExtensionRuns (n + 1) s) :
    n < 243 ∧ ExtensionRuns n s ∧ spanFits (51 + 8 * n) 8 (atFrameWidth s) ∧
      frameField (51 + 8 * n) 8 s ≠ terminator := by
  obtain ⟨hdim, hn, hspan, hbytes⟩ := h
  have hspan := hspan.resolve_left (Nat.succ_ne_zero n)
  refine ⟨hn, ⟨hdim, by omega, ?_, fun j hj => hbytes j (by omega)⟩, spanFits_part hspan (by decide) (by omega),
    hbytes n (Nat.lt_succ_self n)⟩
  exact (Nat.eq_zero_or_pos n).imp_right fun hpos => spanFits_part hspan (by omega) (by omega)

/-- The scan takes into EXT the n extension bytes on the carrier, one by one. -/
theorem scanExtension_scanned {s : State} {n : Nat} (h : ExtensionRuns n s) :
    ∃ e : Vector Byte 243, TookExtension n s { s with ext := e } ∧
      scanExtension 243 51 (scanned 0 s.ext s) = scanExtension (243 - n) (51 + 8 * n) (scanned n e s) := by
  induction n with
  | zero => exact ⟨s.ext, ⟨fun j hj => absurd hj (Nat.not_lt_zero j), fun _ _ => rfl⟩, rfl⟩
  | succ n ih =>
    obtain ⟨hn, hruns, hspan, hbyte⟩ := h.pred
    obtain ⟨e, ⟨hin, hout⟩, hrun⟩ := ih hruns
    have hroom : 243 - n = 243 - (n + 1) + 1 := by omega
    have hread (j : Nat) := extRead_extWrite j n (BitVec.ofNat 8 (frameField (51 + 8 * n) 8 s)) { s with ext := e }
    refine ⟨_, ⟨fun j hj => (hread j).trans ?_, fun j hj => (hread j).trans ?_⟩, ?_⟩
    · by_cases hlast : j = n
      · rw [if_pos ⟨hlast, hn⟩, hlast]
      · rw [if_neg fun h => hlast h.1, hin j (by omega)]
    · rw [if_neg (by omega), hout j (by omega)]
    · rw [hrun, hroom, scanExtension_byte _ (scanned_onFrame n e s) hspan hbyte, tookByte_scanned _ e s hn]
      rfl

/-! ### ReadWidthHeight -/

/-- A register as wide as the field holds it whole. -/
theorem ofNat_frameField_toNat (k b : Nat) (s : State) : (BitVec.ofNat b (frameField k b s)).toNat = frameField k b s :=
  Nat.mod_eq_of_lt (readField_lt _ _ _)

/-- The head of a chain of conditions. -/
theorem of_ite {c p q : Prop} {_ : Decidable c} (hp : c → p) (hq : ¬ c → q) : if c then p else q :=
  iteInduction (motive := fun r => r) hp hq

/-! ### The frame of HDRGET -/

/-- The state u with the fault registers and the fields HDRGET's row names as in t (10_state.md rule R21). -/
def withHeaderOf (t u : State) : State :=
  { u with
    fault := t.fault, subcause := t.subcause, finfo := t.finfo, phase := t.phase, hcode := t.hcode, lsbw := t.lsbw
    hwidth := t.hwidth, hheight := t.hheight, extlen := t.extlen, ext := t.ext, filesz := t.filesz, hdrsz := t.hdrsz
    bitpos := t.bitpos }

/-- It does not matter what those fields hold in u. -/
theorem withHeaderOf_unwritten (t u : State) :
    withHeaderOf t (clearFault (unwritten .hdrget u)) = withHeaderOf t u := rfl

theorem withHeaderOf_self (t : State) : withHeaderOf t t = t := rfl

end Sys2Proof.Machine

/-- Settles O38: HDRGET comes to ReadFileSize with the extension loaded, and separator 4 passes. -/
theorem hdrgetReadsAValidHeader : Obligations.HdrgetReadsAValidHeader := by
  refine ⟨rfl, fun s n hlive ⟨hruns, hspan, hterm, hsep⟩ => ?_⟩
  obtain ⟨t, hrun, htook, ht⟩ := hdrgetBody_terminated hruns (spanFits_part hspan (by omega) (by omega)) hterm
  have hframe : OnFrame s t := by
    rw [ht]
    exact ⟨rfl, rfl, rfl, rfl⟩
  have hsepBit : 59 + 8 * n + 32 = 91 + 8 * n := by omega
  have hendBit : 59 + 8 * n + 40 = 99 + 8 * n := by omega
  rcases readFileSize_cases (k := 59 + 8 * n) hframe (spanFits_part hspan (by decide) (by omega)) with
    ⟨-, hend⟩ | ⟨hbad, -⟩
  · refine ⟨_, exec_of_ok (by decide) hlive (hrun.trans hend), htook, ?_⟩
    obtain ⟨⟨-, hcode, -⟩, -⟩ := hruns.1
    rw [hendBit, ht, gotDimensions, gotBootstrap, hcode]
    rfl
  · rw [hsepBit] at hbad
    exact absurd hsep hbad

/-- Settles O39: the two reads of ReadBootstrap and its two checks, one after the other. -/
theorem hdrgetChecksTheBootstrap : Obligations.HdrgetChecksTheBootstrap := by
  intro s hlive
  have hrun : RunsTo .hdrget s (readBootstrap s) := (runsTo_bodyOf (by decide) hlive).first
  have hcode (hlen : 2 ≤ carLen s) : getField 0 2 { s with phase := .bootstrap } = .ok (readField 0 2 s) :=
    getField_ok ((spanFits_bootstrap_iff (by decide) (by decide)).2 hlen)
  have hwidth (hlen : 5 ≤ carLen s) : getField 2 3 { s with phase := .bootstrap } = .ok (readField 2 3 s) :=
    getField_ok ((spanFits_bootstrap_iff (by decide) (by decide)).2 hlen)
  refine ⟨fun hlen => ?_, fun h2 hlen => ?_, fun hlen hbad => ?_, fun hlen hok hzero => ?_⟩
  · refine hrun.raised (getField_outside (.inl (by decide)) ?_)
    rw [spanFits_bootstrap_iff (by decide) (by decide)]
    exact Nat.not_le.2 hlen
  · refine (hrun.behind (hcode h2)).raised (getField_outside (.inl (by decide)) ?_)
    rw [spanFits_bootstrap_iff (by decide) (by decide)]
    exact Nat.not_le.2 hlen
  · exact ((hrun.behind (hcode (by omega))).behind (hwidth hlen)).raised (require_of_not hbad _ _ _ _)
  · rw [← hzero]
    exact (((hrun.behind (hcode (by omega))).behind (hwidth hlen)).behind (require_of hok _ _ _ _)).raised
      (require_of_not (not_not.2 hzero) _ _ _ _)

/-- Settles O40: ReadWidthHeight piece by piece; each condition of the chain is whether the next piece raises. Behind the
last piece but one only the height is left to fail. -/
theorem hdrgetChecksWidthAndHeight : Obligations.HdrgetChecksWidthAndHeight := by
  intro s hlive hboot hdim fits fld g g1 g2 g3 g4 g5
  have hrun : RunsTo .hdrget s (readWidthHeight (gotBootstrap s)) :=
    ((runsTo_bodyOf (i := .hdrget) (by decide) hlive).behind (readBootstrap_ok hboot)).first
  have hg : OnFrame s g := ⟨rfl, rfl, rfl, rfl⟩
  have hg1 : OnFrame s g1 := ⟨rfl, rfl, rfl, rfl⟩
  have hg2 : OnFrame s g2 := ⟨rfl, rfl, rfl, rfl⟩
  have hg3 : OnFrame s g3 := ⟨rfl, rfl, rfl, rfl⟩
  have hg4 : OnFrame s g4 := ⟨rfl, rfl, rfl, rfl⟩
  refine of_ite ?_ ?_
  · exact fun hout => hrun.raised (hg.readSeparator_outside 3 hboot hout)
  intro hspan1
  have hspan1 := not_not.1 hspan1
  refine of_ite ?_ ?_
  · exact fun hbad => hrun.raised (hg.readSeparator_bad 3 hspan1 hbad)
  intro hsep1
  have hsep1 := not_ne_iff.1 hsep1
  have hrun := hrun.behind (hg.readSeparator_ok 3 hspan1 hsep1)
  refine of_ite ?_ ?_
  · exact fun hout => hrun.raised (hg1.getField_outside hboot hout)
  intro hspan
  have hspan := not_not.1 hspan
  have hrun := hrun.behind (hg1.getField hspan)
  refine of_ite ?_ ?_
  · exact fun hout => hrun.raised (hg2.readSeparator_outside 4 hboot hout)
  intro hspan2
  have hspan2 := not_not.1 hspan2
  refine of_ite ?_ ?_
  · exact fun hbad => hrun.raised (hg2.readSeparator_bad 4 hspan2 hbad)
  intro hsep2
  have hsep2 := not_ne_iff.1 hsep2
  have hrun := hrun.behind (hg2.readSeparator_ok 4 hspan2 hsep2)
  refine of_ite ?_ ?_
  · exact fun hout => hrun.raised (hg3.getField_outside hboot hout)
  intro hspan
  have hspan := not_not.1 hspan
  have hrun := hrun.behind (hg3.getField hspan)
  refine of_ite ?_ ?_
  · exact fun hout => hrun.raised (hg4.readSeparator_outside 5 hboot hout)
  intro hspan3
  have hspan3 := not_not.1 hspan3
  refine of_ite ?_ ?_
  · exact fun hbad => hrun.raised (hg4.readSeparator_bad 5 hspan3 hbad)
  intro hsep3
  have hsep3 := not_ne_iff.1 hsep3
  have hrun := hrun.behind (hg4.readSeparator_ok 5 hspan3 hsep3)
  have hwidth : (BitVec.ofNat 11 (fld 13 11)).toNat = fld 13 11 := ofNat_frameField_toNat 13 11 s
  have hheight : (BitVec.ofNat 11 (fld 32 11)).toNat = fld 32 11 := ofNat_frameField_toNat 32 11 s
  refine of_ite ?_ ?_
  · intro hbad
    rw [← hwidth]
    exact hrun.raised (require_of_not (fun heq => hbad (hwidth.symm.trans (congrArg BitVec.toNat heq))) _ _ _ _)
  intro hw
  have hw := not_ne_iff.1 hw
  have hrun := hrun.behind (require_of (BitVec.eq_of_toNat_eq (hwidth.trans hw)) _ _ _ _)
  rw [← hheight]
  refine hrun.raised (require_of_not (fun heq => hdim ?_) _ _ _ _)
  exact ⟨hboot, hspan3, hsep1, hsep2, hsep3, hw, hheight.symm.trans (congrArg BitVec.toNat heq)⟩

/-- Settles O41: the scan comes to the byte behind the n extension bytes (`scanExtension_scanned`); from there on each
clause follows the run to its raise. -/
theorem hdrgetChecksTheRest : Obligations.HdrgetChecksTheRest := by
  intro s n hlive hruns fits fld k
  obtain ⟨e, htook, hscan⟩ := scanExtension_scanned hruns
  refine ⟨e, htook, ?_⟩
  intro x y z
  have hboot : BootstrapOk s := hruns.1.1
  have hx : OnFrame s x := ⟨rfl, rfl, rfl, rfl⟩
  have hy : OnFrame s y := ⟨rfl, rfl, rfl, rfl⟩
  have hz : OnFrame s z := ⟨rfl, rfl, rfl, rfl⟩
  have hrun := ((runsTo_bodyOf (i := .hdrget) (by decide) hlive).behind (readBootstrap_ok hboot)).behind
    (readWidthHeight_ok hruns.1)
  refine ⟨fun hout => ?_, fun hn hspan hbyte => ?_, fun hspan hterm => ?_⟩
  · exact hrun.raised (hscan.trans (scanExtension_outside _ hx hboot hout))
  · subst hn
    exact hrun.raised (hscan.trans (scanExtension_full hx hspan hbyte))
  · have hrun := hrun.behind (hscan.trans (scanExtension_terminator _ hx hspan hterm))
    refine ⟨fun hout => hrun.raised (hy.getField_outside hboot hout), fun hfile hout => ?_, fun hsep hbad => ?_⟩
    · exact (hrun.behind (hy.getField hfile)).raised (hz.readSeparator_outside 8 hboot hout)
    · have hfile : fits (k + 8) 32 := spanFits_part hsep (by decide) (by omega)
      exact (hrun.behind (hy.getField hfile)).raised (hz.readSeparator_bad 8 hsep hbad)

/-- Settles O42: what HDRGET leaves is what its rows do not name (`exec_frame`). -/
theorem hdrgetWritesOnlyItsRegisters : Obligations.HdrgetWritesOnlyItsRegisters := fun s t h =>
  calc t = withHeaderOf t (clearFault (unwritten .hdrget t)) := by rw [withHeaderOf_unwritten, withHeaderOf_self]
    _ = withHeaderOf t (clearFault (unwritten .hdrget s)) := by rw [exec_frame (by decide) h]
    _ = withHeaderOf t s := withHeaderOf_unwritten t s
end

section
/-! O53: one flipped bit of a separator (spec 43_header.md rules R241, R243). The fields in front of the bit read as
before and the field it lies in reads another value, so HDRGET passes every check up to that separator and fails there;
EXTRACT ends where HDRGET does. -/

open Sys2Proof Sys2Proof.Machine

namespace Sys2Proof.Machine

/-! ### One bit flipped -/

/-- Logical bit k of the carrier inverted. -/
def flipBit (k : Nat) (t : State) : State := writeBit k (! readBit k t) t

theorem readField_congr_bits {t v : State} {p b : Nat} (h : ∀ j, j < b → readBit (p + j) v = readBit (p + j) t) :
    readField p b v = readField p b t :=
  congrArg fieldval (List.map_congr_left fun j hj => h j (List.mem_range.1 hj))

/-- A field determines its bits (rule R121). -/
theorem readBit_eq_of_readField_eq {t v : State} {p b j : Nat} (h : readField p b v = readField p b t) (hj : j < b) :
    readBit (p + j) v = readBit (p + j) t := by
  have hbits : readBits p b v = readBits p b t := by
    rw [← fieldbits_fieldval (readBits p b v), ← fieldbits_fieldval (readBits p b t), readBits_length, readBits_length]
    exact congrArg (fieldbits · b) h
  rw [← getElem_readBits (n := b) (by simpa using hj), ← getElem_readBits (n := b) (by simpa using hj)]
  simp only [hbits]

section
variable {t : State} {k n : Nat}

theorem readBit_flipBit_same (hspan : spanFits 0 n t) (hk : k < n) : readBit k (flipBit k t) = ! readBit k t := by
  have hpos := bitCell_position_lt hspan hk
  rw [Nat.zero_add] at hpos
  exact writeBit_getLsbD_same _ hpos

theorem readBit_flipBit_other {j : Nat} (hspan : spanFits 0 n t) (hk : k < n) (hj : j ≠ k) :
    readBit j (flipBit k t) = readBit j t := by
  refine writeBit_getLsbD_other (s := t) (k := k) _ fun hcell => hj ?_
  refine (bitCell_injective (i := k) (j := j) hspan hk ?_).symm
  rw [Nat.zero_add, Nat.zero_add]
  exact hcell

theorem atFrameWidth_flipBit (hown : atFrameWidth t = t) (hspan : spanFits 0 n t) (hk : k < n) (h5 : 5 ≤ k) :
    atFrameWidth (flipBit k t) = flipBit k t := by
  have hwidth : readField 2 3 (flipBit k t) = readField 2 3 t :=
    readField_congr_bits fun j hj => readBit_flipBit_other hspan hk (by omega)
  have hlsbw : BitVec.ofNat 3 (readField 2 3 t) = t.lsbw := congrArg State.lsbw hown
  rw [atFrameWidth, hwidth, hlsbw]
  rfl

/-- From the frame on t to the frame on v bit k is inverted: up to it the fields read as before, the field it lies in
reads another value, and the same spans are on the carrier. -/
structure Flipped (k : Nat) (t v : State) : Prop where
  imgw : v.imgw = t.imgw
  imgh : v.imgh = t.imgh
  bootstrap : BootstrapOk t → BootstrapOk v
  fits : ∀ p b, spanFits p b (atFrameWidth t) → spanFits p b (atFrameWidth v)
  below : ∀ p b, p + b ≤ k → frameField p b v = frameField p b t
  differs : ∀ p b, p ≤ k → k < p + b → frameField p b v ≠ frameField p b t

theorem flipped_flipBit (hown : atFrameWidth t = t) (hspan : spanFits 0 n t) (hk : k < n) (h5 : 5 ≤ k) :
    Flipped k t (flipBit k t) := by
  have hown' := atFrameWidth_flipBit hown hspan hk h5
  have hbelow (p b : Nat) (hle : p + b ≤ k) : readField p b (flipBit k t) = readField p b t :=
    readField_congr_bits fun j hj => readBit_flipBit_other hspan hk (by omega)
  refine ⟨rfl, rfl, fun ⟨hlen, hcode, hwidth⟩ => ⟨hlen, ?_, ?_⟩, fun p b hfits => ?_, fun p b hle => ?_,
    fun p b hp hlt => ?_⟩
  · rwa [hbelow 0 2 (by omega)]
  · rwa [hbelow 2 3 h5]
  · rw [hown] at hfits
    rw [hown']
    exact (spanFits_congr (s := t) (t := flipBit k t) rfl rfl rfl p b).2 hfits
  · rw [frameField, frameField, hown', hown, hbelow p b hle]
  · rw [frameField, frameField, hown', hown]
    intro hfield
    have hbit := readBit_eq_of_readField_eq hfield (j := k - p) (by omega)
    rw [Nat.add_sub_cancel' hp, readBit_flipBit_same hspan hk] at hbit
    exact Bool.not_ne_self _ hbit

end

/-! ### The separator the bit lies in -/

/-- HDRGET raises CorruptedHeaderError under this sub-cause, PAY untouched. -/
def FailsCheck (sub : Nat) (v : State) : Prop :=
  ∃ info u, exec .hdrget v = .next (raise .corruptedHeader sub info u) ∧ u.pay = v.pay

section
variable {t v : State} {k : Nat}

/-- No field up to separator 3 is missing: what CheckSpan tests for the one passes for the other. -/
theorem Flipped.noneMissing (h : Flipped k t v) (hspan : spanFits 0 51 (atFrameWidth t)) {p b : Nat} (hpos : 0 < b)
    (hle : p + b ≤ 51) : ¬ ¬ spanFits p b (atFrameWidth v) :=
  not_not.2 (h.fits p b (spanFits_part hspan hpos (by omega)))

/-- A separator in front of the bit passes. -/
theorem Flipped.separatorPasses (h : Flipped k t v) {p : Nat} (hsep : frameField p 8 t = 0x78) (hle : p + 8 ≤ k) :
    ¬ frameField p 8 v ≠ 0x78 :=
  not_ne_iff.2 ((h.below p 8 hle).trans hsep)

theorem Flipped.separator1 (h : Flipped k t v) (hv : Live v) (hdim : DimensionsOk t) (h5 : 5 ≤ k) (h13 : k < 13) :
    FailsCheck 3 v := by
  obtain ⟨hboot, hspan, hsep1, -⟩ := hdim
  have hbad : frameField 5 8 v ≠ 0x78 := hsep1 ▸ h.differs 5 8 h5 h13
  have hrule := hdrgetChecksWidthAndHeight v hv (h.bootstrap hboot) fun ⟨_, _, hok, _⟩ => hbad hok
  have hin {p b : Nat} := h.noneMissing hspan (p := p) (b := b)
  dsimp only at hrule
  rw [if_neg (hin (by decide) (by decide)), if_pos hbad] at hrule
  exact ⟨_, _, hrule, rfl⟩

theorem Flipped.separator2 (h : Flipped k t v) (hv : Live v) (hdim : DimensionsOk t) (h24 : 24 ≤ k) (h32 : k < 32) :
    FailsCheck 4 v := by
  obtain ⟨hboot, hspan, hsep1, hsep2, -⟩ := hdim
  have hbad : frameField 24 8 v ≠ 0x78 := hsep2 ▸ h.differs 24 8 h24 h32
  have hrule := hdrgetChecksWidthAndHeight v hv (h.bootstrap hboot) fun ⟨_, _, _, hok, _⟩ => hbad hok
  have hin {p b : Nat} := h.noneMissing hspan (p := p) (b := b)
  dsimp only at hrule
  rw [if_neg (hin (by decide) (by decide)), if_neg (h.separatorPasses hsep1 (by omega)),
    if_neg (hin (by decide) (by decide)), if_neg (hin (by decide) (by decide)), if_pos hbad] at hrule
  exact ⟨_, _, hrule, rfl⟩

theorem Flipped.separator3 (h : Flipped k t v) (hv : Live v) (hdim : DimensionsOk t) (h43 : 43 ≤ k) (h51 : k < 51) :
    FailsCheck 5 v := by
  obtain ⟨hboot, hspan, hsep1, hsep2, hsep3, -⟩ := hdim
  have hbad : frameField 43 8 v ≠ 0x78 := hsep3 ▸ h.differs 43 8 h43 h51
  have hrule := hdrgetChecksWidthAndHeight v hv (h.bootstrap hboot) fun ⟨_, _, _, _, hok, _⟩ => hbad hok
  have hin {p b : Nat} := h.noneMissing hspan (p := p) (b := b)
  dsimp only at hrule
  rw [if_neg (hin (by decide) (by decide)), if_neg (h.separatorPasses hsep1 (by omega)),
    if_neg (hin (by decide) (by decide)), if_neg (hin (by decide) (by decide)),
    if_neg (h.separatorPasses hsep2 (by omega)), if_neg (hin (by decide) (by decide)),
    if_neg (hin (by decide) (by decide)), if_pos hbad] at hrule
  exact ⟨_, _, hrule, rfl⟩

theorem Flipped.extensionRuns {n : Nat} (h : Flipped k t v) (hruns : ExtensionRuns n t) (hk : 51 + 8 * n ≤ k) :
    ExtensionRuns n v := by
  obtain ⟨⟨hboot, hspan, hsep1, hsep2, hsep3, hw, hh⟩, hn, hext, hbytes⟩ := hruns
  refine ⟨⟨h.bootstrap hboot, h.fits _ _ hspan, (h.below 5 8 (by omega)).trans hsep1,
    (h.below 24 8 (by omega)).trans hsep2, (h.below 43 8 (by omega)).trans hsep3, ?_, ?_⟩, hn,
    hext.imp_right (h.fits _ _), fun j hj => ?_⟩
  · rw [h.below 13 11 (by omega), hw, h.imgw]
  · rw [h.below 32 11 (by omega), hh, h.imgh]
  · rw [h.below _ _ (by omega)]
    exact hbytes j hj

theorem Flipped.separator4 {n : Nat} (h : Flipped k t v) (hv : Live v) (hok : HeaderOk n t) (h91 : 91 + 8 * n ≤ k)
    (h99 : k < 99 + 8 * n) : FailsCheck 8 v := by
  obtain ⟨hruns, hspan, hterm, hsep⟩ := hok
  have hbit : 51 + 8 * n + 40 = 91 + 8 * n := by omega
  have hfits (p b : Nat) (hpos : 0 < b) (hle : p + b ≤ 99 + 8 * n) : spanFits p b (atFrameWidth v) :=
    h.fits p b (spanFits_part hspan hpos (by omega))
  have hbad : frameField (51 + 8 * n + 40) 8 v ≠ 0x78 := by
    rw [hbit, ← hsep]
    exact h.differs _ _ h91 (by omega)
  obtain ⟨e, -, hrule⟩ := hdrgetChecksTheRest v n hv (h.extensionRuns hruns (by omega))
  obtain ⟨-, -, hrule⟩ := hrule
  obtain ⟨-, -, hrule⟩ := hrule (hfits _ _ (by decide) (by omega)) ((h.below _ _ (by omega)).trans hterm)
  exact ⟨_, _, hrule (hfits _ _ (by decide) (by omega)) hbad, rfl⟩

end

/-! ### EXTRACT (rule R285), and the frame EMBED wrote -/

/-- A fault of HDRGET ends EXTRACT. -/
theorem exec_extract_of_hdrget_fault {s t : State} (h : exec .hdrget s = .next t) (ht : ¬ Live t) :
    exec .extract s = .next t := by
  rw [exec_eq_command (by decide)] at h ⊢
  by_cases hlive : Live s
  · rw [command_live hlive] at h ⊢
    have hends := bodyOf_ends .hdrget s
    generalize hr : bodyOf .hdrget s = r at h hends
    cases hends with
    | done hfin =>
      cases h
      obtain ⟨hfault, -, -⟩ := hfin.faultRecord
      exact absurd (hfault.trans hlive) ht
    | raised _ =>
      cases h
      have hextract : bodyOf .extract s = _ := bind_of_error hr
      rw [hextract]
  · rw [command_faulted hlive] at h ⊢
    exact h

/-- A header of v's image on its carrier is a valid one, when no extension byte is the terminator. -/
theorem Carries.headerOk {v : State} {w : BitVec 3} {e : List Byte} {f : Nat} {p : Bits}
    (h : Carries (frameOf w e f p v) w v) (hw : w ≠ 0) (hmax : e.length ≤ 243) (hf : f < 2 ^ 32)
    (hbytes : ∀ j (hj : j < e.length), e[j] ≠ 0x0A) : HeaderOk e.length v := by
  obtain ⟨hterm, -, hsep⟩ := serialize_back_fields (w := w.toNat) (wid := v.imgw.toNat) (hei := v.imgh.toNat) (e := e)
    (l := p) hf
  exact ⟨h.extensionRuns hw (Nat.le_refl _) hmax hbytes, h.spanFits (by omega) (by omega),
    (h.frameField (by omega)).trans hterm, (h.frameField (by omega)).trans hsep⟩

/-- After an EMBED that succeeds, with no terminator in the extension, a whole valid header stands on the carrier, at the
width in LSBW. -/
theorem headerOk_embed {s t : State} (hlive : Live s) (h : exec .embed s = .next t) (ht : Live t)
    (hext : NoTerminator s) : HeaderOk s.extlen.toNat t ∧ atFrameWidth t = t := by
  obtain ⟨hdims, -, -, -, -, -, -, hinputs, -⟩ := commandsWriteOnlyWhatTheirRowsName .embed s t h
  obtain ⟨himgw, himgh⟩ := hdims (by decide)
  obtain ⟨hlsbw, -, -⟩ := hinputs rfl
  obtain ⟨hwidth, he, hcarries⟩ := carries_embed hlive h ht rfl himgw himgh
  have hlen := extBytes_length he
  have hfile : 8 * s.paylen.toNat < 2 ^ 32 := by
    have := s.paylen.isLt
    omega
  constructor
  · rw [← hlen]
    refine hcarries.headerOk hwidth (by omega) hfile fun j hj => ?_
    rw [extBytes_getElem]
    exact hext j (by omega)
  · rw [hcarries.frame_atFrameWidth, ← hlsbw]

end Sys2Proof.Machine

/-- Settles O53: the separator the bit lies in is the first check that fails. -/
theorem flippedSeparatorBitIsDetected : Obligations.FlippedSeparatorBitIsDetected := by
  intro s t k sub hlive hembed ht hext hk
  obtain ⟨hok, hown⟩ := headerOk_embed hlive hembed ht hext
  obtain ⟨⟨hdim, -⟩, hspan, -⟩ := id hok
  rw [hown] at hspan
  have hflip : Flipped k t (flipBit k t) := flipped_flipBit hown hspan (by omega) (by omega)
  have hv : Live (flipBit k t) := ht
  have hfails : sub < 16 ∧ FailsCheck sub (flipBit k t) := by
    rcases hk with ⟨hle, hlt, rfl⟩ | ⟨hle, hlt, rfl⟩ | ⟨hle, hlt, rfl⟩ | ⟨hle, hlt, rfl⟩
    · exact ⟨by decide, hflip.separator1 hv hdim hle hlt⟩
    · exact ⟨by decide, hflip.separator2 hv hdim hle hlt⟩
    · exact ⟨by decide, hflip.separator3 hv hdim hle hlt⟩
    · exact ⟨by decide, hflip.separator4 hv hok hle hlt⟩
  obtain ⟨hsub, info, u, hrun, hpay⟩ := hfails
  exact ⟨_, exec_extract_of_hdrget_fault hrun FaultCode.noConfusion, rfl, Nat.mod_eq_of_lt hsub, hpay⟩
end

section
/-! The capacity planner, and the statements of O43, O44, O45 (spec 44_capacity.md rules R260, R261, R262). That both
magnitudes have one sign is `planFits_iff`, the rule of the rounded-up quotient (`ceilDiv_le_iff`); CAPCHK is BuildHeader
and then `plan`. -/

open Sys2Proof Sys2Proof.Machine

namespace Sys2Proof.Machine

/-! ### The figures (rule R260) -/

theorem absDiff_of_ge {a b : Nat} (h : b ≤ a) : absDiff a b = a - b := by
  rw [absDiff, Nat.sub_eq_zero_of_le h, Nat.add_zero]

theorem absDiff_of_le {a b : Nat} (h : a ≤ b) : absDiff a b = b - a := by
  rw [absDiff, Nat.sub_eq_zero_of_le h, Nat.zero_add]

theorem absDiff_lt {a b n : Nat} (ha : a < n) (hb : b < n) : absDiff a b < n := by
  rcases Nat.le_total a b with h | h
  · rw [absDiff_of_le h]
    exact Nat.sub_lt_of_lt hb
  · rw [absDiff_of_ge h]
    exact Nat.sub_lt_of_lt ha

section
variable {c t w : Nat}

theorem planFits_iff_planNeed_le : planFits c t w = true ↔ planNeed t w ≤ c := decide_eq_true_iff

/-- The carrier has the bytes the planner asks for just when it has the bits of the frame. -/
theorem planFits_iff (hw : 1 ≤ w) : planFits c t w = true ↔ t ≤ c * w :=
  planFits_iff_planNeed_le.trans (ceilDiv_le_iff hw)

theorem planFits_eq_decide (hw : 1 ≤ w) : planFits c t w = decide (t ≤ c * w) :=
  Bool.eq_iff_iff.2 ((planFits_iff hw).trans decide_eq_true_iff.symm)

theorem planFits_eq_false_iff : planFits c t w = false ↔ c < planNeed t w := by
  rw [← Bool.not_eq_true, planFits_iff_planNeed_le, Nat.not_le]

theorem lt_of_planFits_eq_false (hw : 1 ≤ w) (h : planFits c t w = false) : c * w < t := by
  rw [← Nat.not_le, ← planFits_iff hw, h]
  exact Bool.false_ne_true

/-- The surplus, when the planner says that the frame fits. -/
theorem planDef_of_fits (hw : 1 ≤ w) (h : planFits c t w = true) :
    planDefBytes c t w = c - planNeed t w ∧ planDefBits c t w = c * w - t :=
  ⟨absDiff_of_ge (planFits_iff_planNeed_le.1 h), absDiff_of_ge ((planFits_iff hw).1 h)⟩

/-- The deficit, when it says that the frame does not fit. -/
theorem planDef_of_not_fits (hw : 1 ≤ w) (h : planFits c t w = false) :
    planDefBytes c t w = planNeed t w - c ∧ planDefBits c t w = t - c * w :=
  ⟨absDiff_of_le (Nat.le_of_lt (planFits_eq_false_iff.1 h)), absDiff_of_le (Nat.le_of_lt (lt_of_planFits_eq_false hw h))⟩

theorem le_planNeed_mul (t : Nat) (hw : 1 ≤ w) : t ≤ planNeed t w * w := (ceilDiv_le_iff hw).1 (Nat.le_refl _)

theorem planNeed_le (t : Nat) (hw : 1 ≤ w) : planNeed t w ≤ t := (ceilDiv_le_iff hw).2 (Nat.le_mul_of_pos_right t hw)

theorem planNeed_pos (ht : 1 ≤ t) (hw : 1 ≤ w) : 1 ≤ planNeed t w := by
  have hbits := le_planNeed_mul t hw
  exact Nat.pos_of_mul_pos_right (Nat.lt_of_lt_of_le ht hbits)

end

/-! ### No figure wraps in its register (rule R261) -/

section
variable {s : State}

theorem plan_capneed_toNat (hw : s.lsbw ≠ 0) :
    (plan (frameBits s) s).capneed.toNat = planNeed (frameBits s) s.lsbw.toNat := by
  have hneed := planNeed_le (frameBits s) (lsbw_pos hw)
  have hbits := frameBits_lt s
  rw [plan_capneed, BitVec.toNat_ofNat, Nat.mod_eq_of_lt (by omega)]

theorem plan_defbytes_toNat (s : State) :
    (plan (frameBits s) s).defbytes.toNat = planDefBytes (carLen s) (frameBits s) s.lsbw.toNat := by
  rw [plan_defbytes, BitVec.toNat_ofNat, Nat.mod_eq_of_lt (planDefBytes_lt s)]

theorem plan_defbits_toNat (s : State) :
    (plan (frameBits s) s).defbits.toNat = planDefBits (carLen s) (frameBits s) s.lsbw.toNat := by
  have hbits := frameBits_lt s
  have hroom : carLen s * s.lsbw.toNat ≤ 3 * 2047 * 2047 * 7 :=
    Nat.mul_le_mul (carLen_le s) (Nat.le_of_lt_succ s.lsbw.isLt)
  have hdef : planDefBits (carLen s) (frameBits s) s.lsbw.toNat < 2 ^ 33 := absDiff_lt (by omega) (by omega)
  rw [plan_defbits, BitVec.toNat_ofNat, Nat.mod_eq_of_lt hdef]

theorem plan_defpix_toNat (s : State) :
    (plan (frameBits s) s).defpix.toNat = planDefPix (carLen s) (frameBits s) s.lsbw.toNat := by
  have hdef := planDefBytes_lt s
  rw [plan_defpix, BitVec.toNat_ofNat, Nat.mod_eq_of_lt (by rw [planDefPix]; omega)]

/-! ### CAPCHK (rule R261) -/

/-- Behind BuildHeader T is the length of the frame the inputs describe. -/
theorem frameBits_builtHeader (he : s.extlen.toNat ≤ 243) : frameBits (builtHeader s) = frameLen s := by
  rw [frameBits, builtHeader_hdrsz_toNat he, builtHeader_filesz_toNat, frameLen]

theorem plan_builtHeader (hw : s.lsbw ≠ 0) (he : s.extlen.toNat ≤ 243) :
    plan (frameBits (builtHeader s)) (builtHeader s) = planned s := by
  have hfits : planFits (carLen (builtHeader s)) (frameLen s) s.lsbw.toNat =
      decide (frameLen s ≤ carLen s * s.lsbw.toNat) := planFits_eq_decide (lsbw_pos hw)
  rw [frameBits_builtHeader he, plan, builtHeader_lsbw, hfits]
  rfl

theorem exec_capchk (hlive : Live s) (hw : s.lsbw ≠ 0) (he : s.extlen.toNat ≤ 243) :
    exec .capchk s = .next (planned s) :=
  exec_of_ok (by decide) hlive (bind_of_ok (buildHeader_ok hw he) (congrArg Except.ok (plan_builtHeader hw he)))

/-- The planner's figures are made from inputs that CAPCHK does not write. -/
theorem planned_planned (s : State) : planned (planned s) = planned s := rfl

end

end Sys2Proof.Machine

/-- Settles O43: with the sign known (`planFits_iff`) each magnitude is the one difference that is not 0. -/
theorem plannerFigures : Obligations.PlannerFigures := by
  intro c t w hw _
  refine ⟨rfl, planFits_iff_planNeed_le, planFits_iff hw, planDef_of_fits hw, fun h => ?_, rfl⟩
  obtain ⟨hbytes, hbits⟩ := planDef_of_not_fits hw h
  rw [hbytes, hbits]
  exact ⟨rfl, rfl, Nat.sub_pos_of_lt (planFits_eq_false_iff.1 h), Nat.sub_pos_of_lt (lt_of_planFits_eq_false hw h)⟩

/-- Settles O44: CAPCHK is BuildHeader and `plan`, neither of which writes what they read. -/
theorem capchkReportsThePlan : Obligations.CapchkReportsThePlan := by
  refine ⟨rfl, fun s hlive => ⟨fun hw he => ?_, fun hw => ?_, fun hw he => ?_⟩⟩
  · have hfirst := exec_capchk hlive hw he
    have hagain := exec_capchk (s := planned s) hlive hw he
    rw [planned_planned] at hagain
    rw [← plan_builtHeader hw he] at hfirst hagain ⊢
    rw [← frameBits_builtHeader he]
    exact ⟨hfirst, hagain, plan_capneed_toNat (s := builtHeader s) hw, rfl, plan_defbytes_toNat (builtHeader s),
      plan_defbits_toNat (builtHeader s), plan_defpix_toNat (builtHeader s)⟩
  · exact exec_of_error (by decide) hlive (bind_of_error (buildHeader_noWidth hw))
  · exact exec_of_error (by decide) hlive (bind_of_error (buildHeader_longExtension hw he))

/-- Settles O45: the gap is R183's (`carrierCapacityIsExact`), and one byte below need up to w bits of the last byte are
missing. -/
theorem plannerFallsShortOfTheExactBound : Obligations.PlannerFallsShortOfTheExactBound := by
  intro t w hw hw7 ht
  obtain ⟨-, -, -, -, -, -, hgap⟩ := carrierCapacityIsExact w hw hw7
  obtain ⟨hle, hone, htwo, hthree, hfour, hmore⟩ := hgap t ht
  have hpos : 1 ≤ planNeed t w := planNeed_pos (by omega) hw
  have hshort : planFits (planNeed t w - 1) t w = false := planFits_eq_false_iff.2 (Nat.sub_one_lt_of_lt hpos)
  obtain ⟨hbytes, hbits⟩ := planDef_of_not_fits hw hshort
  have hbelow : (planNeed t w - 1) * w < t := lt_of_planFits_eq_false hw hshort
  have hlast : t ≤ (planNeed t w - 1) * w + w := by
    rw [← Nat.succ_mul, Nat.succ_eq_add_one, Nat.sub_add_cancel hpos]
    exact le_planNeed_mul t hw
  have hneed : planNeed t w = (t + w - 1) / w := rfl
  rw [← hneed] at hle hone htwo hthree hfour hmore
  rw [hbytes, hbits]
  refine ⟨fun h1 => ?_, fun h2 => ?_, hshort, ?_, ?_, ?_⟩ <;> omega
end

section
/-! The payload commands, and the statements of O46, O47 about PAYPUT and PAYGET (spec 45_codec.md rules R270, R275). Both
test the span of a payload that is not empty (`checkPayload`) and then write or read it whole; `payloadBits_eq_map` says
which bit of which byte each payload bit is, `payRead_loadPayload` what PAY holds afterwards. -/

open Sys2Proof Sys2Proof.Machine

namespace Sys2Proof.Machine

/-! ### The payload as bits (rule R124) -/

theorem bytebits_append (l l' : List Byte) : bytebits (l ++ l') = bytebits l ++ bytebits l' := List.flatMap_append

theorem bytebits_singleton (v : Byte) : bytebits [v] = (List.range 8).map fun j => v.getLsbD j := List.append_nil _

/-- Bit m of a string of bytes is bit m mod 8 of byte m div 8. -/
theorem bytebits_map_range (f : Nat → Byte) (n : Nat) :
    bytebits ((List.range n).map f) = (List.range (8 * n)).map fun m => (f (m / 8)).getLsbD (m % 8) := by
  induction n with
  | zero => rfl
  | succ n ih =>
    rw [List.range_succ, List.map_append, bytebits_append, ih, Nat.mul_succ, List.range_add, List.map_append,
      List.map_map, List.map_singleton, bytebits_singleton]
    refine congrArg _ (List.map_congr_left fun j hj => ?_)
    have hj : j < 8 := List.mem_range.1 hj
    have hbyte : (8 * n + j) / 8 = n := by omega
    have hbit : (8 * n + j) % 8 = j := by omega
    rw [Function.comp_apply, hbyte, hbit]

theorem payloadBits_eq_map (s : State) :
    payloadBits s = (List.range (8 * s.paylen.toNat)).map fun m => (payRead (m / 8) s).getLsbD (m % 8) := by
  simpa only [payloadBits, payBytes, Nat.zero_add] using bytebits_map_range (fun j => payRead (0 + j) s) s.paylen.toNat

/-! ### The span of a payload -/

/-- CheckSpan of a payload of l bits, which passes an empty one unseen (rules R270, R275). -/
def checkPayload (k l : Nat) (kind : SpanKind) (s : State) : Run Unit :=
  if 0 < l then checkSpan k l kind s else .ok ()

section
variable {k l : Nat} {kind : SpanKind} {s : State}

theorem checkPayload_ok (h : 0 < l → spanFits k l s) : checkPayload k l kind s = .ok () := by
  by_cases hl : 0 < l
  · exact (if_pos hl).trans (checkSpan_ok kind (h hl))
  · exact if_neg hl

theorem checkPayload_error {u : State} (hl : 0 < l) (h : checkSpan k l kind s = .error u) :
    checkPayload k l kind s = .error u :=
  (if_pos hl).trans h

theorem checkPayload_bind (f : Unit → Run State) :
    checkPayload k l kind s >>= f = if 0 < l then checkSpan k l kind s >>= f else f () := by
  by_cases hl : 0 < l
  · rw [checkPayload, if_pos hl, if_pos hl]
  · rw [checkPayload, if_neg hl, if_neg hl]
    rfl

end

/-! ### PAYPUT (rule R270) -/

/-- The state PAYPUT leaves when it does not fault. -/
def payloadPut (s : State) : State :=
  { writeBits s.bitpos.toNat (payloadBits s) s with
    bitpos := BitVec.ofNat 32 (s.bitpos.toNat + 8 * s.paylen.toNat) }

theorem payloadPut_eq (s : State) :
    payloadPut s = { s with
      pix := (payloadPut s).pix, bitpos := BitVec.ofNat 32 (s.bitpos.toNat + 8 * s.paylen.toNat) } := by
  rw [payloadPut, writeBits_eq]

theorem payputBody_eq (s : State) :
    payputBody s = (do
      require (s.paylen.toNat ≤ s.payCap.toNat) .paramError 3 s.paylen.toNat s
      checkPayload s.bitpos.toNat (8 * s.paylen.toNat) .write s
      return payloadPut s) := by
  simp only [checkPayload_bind]
  rfl

section
variable {s : State}

theorem exec_payput_ok (hlive : Live s) (hcap : s.paylen.toNat ≤ s.payCap.toNat)
    (hfits : 0 < 8 * s.paylen.toNat → spanFits s.bitpos.toNat (8 * s.paylen.toNat) s) :
    exec .payput s = .next (payloadPut s) :=
  exec_of_require (by decide) hlive hcap (payputBody_eq s) (bind_of_ok (checkPayload_ok hfits) rfl)

theorem exec_payput_error {u : State} (hlive : Live s) (hcap : s.paylen.toNat ≤ s.payCap.toNat)
    (hpos : 0 < 8 * s.paylen.toNat) (h : checkSpan s.bitpos.toNat (8 * s.paylen.toNat) .write s = .error u) :
    exec .payput s = .next u :=
  exec_of_error (by decide) hlive ((payputBody_eq s).trans
    (bind_of_ok (require_of hcap _ _ _ _) (bind_of_error (checkPayload_error hpos h))))

/-- An empty payload writes no bit and leaves the cursor where it is. -/
theorem payloadPut_empty (h : 8 * s.paylen.toNat = 0) : payloadPut s = s := by
  have hbits : payloadBits s = [] := List.eq_nil_of_length_eq_zero ((payloadBits_length s).trans h)
  rw [payloadPut, hbits, h, writeBits_nil, Nat.add_zero, BitVec.ofNat_toNat, BitVec.setWidth_eq]

end

/-! ### PAYGET (rule R275) -/

/-- What PAY holds behind the packing loop: the bytes read, and above and below them what it held before. -/
theorem payRead_loadPayload (n j k i : Nat) (s : State) :
    payRead i (loadPayload n j k s) =
      if j ≤ i ∧ i < j + n then BitVec.ofNat 8 (readField (k + 8 * (i - j)) 8 s) else payRead i s := by
  induction n generalizing j k s with
  | zero => rw [if_neg (by omega)]; rfl
  | succ n ih =>
    have hfield (p : Nat) (v : Byte) : readField p 8 (payWrite j v s) = readField p 8 s :=
      readField_congr rfl rfl rfl p 8
    rw [loadPayload, ih, hfield, payRead_payWrite]
    rcases Nat.lt_trichotomy i j with hlt | rfl | hgt
    · rw [if_neg (by omega), if_neg (by omega), if_neg (by omega)]
    · rw [if_neg (by omega), if_pos rfl, if_pos (by omega), Nat.sub_self, Nat.mul_zero, Nat.add_zero]
    · have hbit : k + 8 + 8 * (i - (j + 1)) = k + 8 * (i - j) := by omega
      have hin : (j + 1 ≤ i ∧ i < j + 1 + n) ↔ (j ≤ i ∧ i < j + (n + 1)) := by omega
      rw [hbit, if_neg (Nat.ne_of_gt hgt), if_congr hin rfl rfl]

/-- The state of PAYGET behind its first line: PHASE 6. -/
def inPayload (s : State) : State := { s with phase := .payload }

/-- The state PAYGET leaves when it does not fault. -/
def payloadGot (s : State) : State :=
  { loadPayload (s.filesz.toNat / 8) 0 s.bitpos.toNat (inPayload s) with
    paylen := BitVec.ofNat 29 (s.filesz.toNat / 8), bitpos := BitVec.ofNat 32 (s.bitpos.toNat + s.filesz.toNat)
    phase := .done }

theorem payloadGot_eq (s : State) :
    payloadGot s = { s with
      pay := (payloadGot s).pay, paylen := BitVec.ofNat 29 (s.filesz.toNat / 8)
      bitpos := BitVec.ofNat 32 (s.bitpos.toNat + s.filesz.toNat), phase := .done } := by
  rw [payloadGot, loadPayload_eq]
  rfl

theorem payRead_payloadGot (i : Nat) (s : State) :
    payRead i (payloadGot s) =
      if i < s.filesz.toNat / 8 then BitVec.ofNat 8 (readField (s.bitpos.toNat + 8 * i) 8 s) else payRead i s := by
  refine (payRead_loadPayload (s.filesz.toNat / 8) 0 s.bitpos.toNat i (inPayload s)).trans ?_
  simp only [Nat.zero_le, true_and, Nat.zero_add]
  rfl

theorem paygetBody_eq (s : State) :
    paygetBody s = (do
      require (s.filesz.toNat % 8 = 0) .lengthError 1 s.filesz.toNat (inPayload s)
      require (s.filesz.toNat / 8 ≤ s.payCap.toNat) .lengthError 2 s.filesz.toNat (inPayload s)
      checkPayload s.bitpos.toNat s.filesz.toNat .read (inPayload s)
      return payloadGot s) := by
  simp only [checkPayload_bind]
  rfl

section
variable {s : State}

theorem paygetBody_behindLength (hbytes : s.filesz.toNat % 8 = 0) (hcap : s.filesz.toNat / 8 ≤ s.payCap.toNat) :
    paygetBody s = (do
      checkPayload s.bitpos.toNat s.filesz.toNat .read (inPayload s)
      return payloadGot s) :=
  (paygetBody_eq s).trans (bind_of_ok (require_of hbytes _ _ _ _) (bind_of_ok (require_of hcap _ _ _ _) rfl))

theorem exec_payget_ok (hlive : Live s) (hbytes : s.filesz.toNat % 8 = 0)
    (hcap : s.filesz.toNat / 8 ≤ s.payCap.toNat)
    (hfits : s.filesz.toNat = 0 ∨ spanFits s.bitpos.toNat s.filesz.toNat s) :
    exec .payget s = .next (payloadGot s) := by
  have hcheck : checkPayload s.bitpos.toNat s.filesz.toNat .read (inPayload s) = .ok () :=
    checkPayload_ok fun hpos => hfits.resolve_left (Nat.ne_of_gt hpos)
  exact exec_of_ok (by decide) hlive ((paygetBody_behindLength hbytes hcap).trans (bind_of_ok hcheck rfl))

theorem exec_payget_error {u : State} (hlive : Live s) (hbytes : s.filesz.toNat % 8 = 0)
    (hcap : s.filesz.toNat / 8 ≤ s.payCap.toNat) (hpos : 0 < s.filesz.toNat)
    (h : checkSpan s.bitpos.toNat s.filesz.toNat .read (inPayload s) = .error u) : exec .payget s = .next u :=
  exec_of_error (by decide) hlive
    ((paygetBody_behindLength hbytes hcap).trans (bind_of_error (checkPayload_error hpos h)))

end

end Sys2Proof.Machine

/-- Settles O46: behind the test of PAYLEN PAYPUT is the span test of the payload and one WriteBits. -/
theorem payputWritesThePayload : Obligations.PayputWritesThePayload := by
  refine ⟨rfl, fun s hlive => ⟨fun hcap => ⟨fun hempty => ?_, fun hpos hfits => ?_, fun hpos hk hw => ?_,
    fun hpos hwidth hout => ?_⟩, fun hcap => ?_⟩⟩
  · have hexec := exec_payput_ok hlive hcap fun hpos => absurd hempty (Nat.ne_of_gt hpos)
    rwa [payloadPut_empty hempty] at hexec
  · refine ⟨_, exec_payput_ok hlive hcap fun _ => hfits, payloadPut_eq s, spanFits_end_lt hfits, ?_⟩
    rw [← payloadBits_eq_map]
    refine wroteBits_writeBits (l := payloadBits s) fun _ => ?_
    rwa [payloadBits_length]
  · exact exec_payput_error hlive hcap hpos (checkSpan_noWidth .write hk hw)
  · exact exec_payput_error hlive hcap hpos (checkSpan_outside .write hwidth hout)
  · exact exec_of_require_not (by decide) hlive (Nat.not_le.2 hcap) (payputBody_eq s)

/-- Settles O47: behind the two tests of FILESZ PAYGET is the span test of the payload and the packing loop. -/
theorem paygetReadsThePayload : Obligations.PaygetReadsThePayload := by
  refine ⟨rfl, fun s hlive => ⟨fun hbad => ?_, fun hbytes hbig => ?_, fun hbytes hcap => ⟨fun hfits => ?_,
    fun hpos hk hw => ?_, fun hpos hwidth hout => ?_⟩⟩⟩
  · exact exec_of_error (by decide) hlive ((paygetBody_eq s).trans (bind_of_error (require_of_not hbad _ _ _ _)))
  · exact exec_of_error (by decide) hlive ((paygetBody_eq s).trans
      (bind_of_ok (require_of hbytes _ _ _ _) (bind_of_error (require_of_not (Nat.not_le.2 hbig) _ _ _ _))))
  · refine ⟨_, exec_payget_ok hlive hbytes hcap hfits, payloadGot_eq s, fun j hj => ?_, fun j hj => ?_⟩
    · rw [payRead_payloadGot, if_pos hj]
    · rw [payRead_payloadGot, if_neg (Nat.not_lt.2 hj)]
  · exact exec_payget_error hlive hbytes hcap hpos (checkSpan_noWidth (s := inPayload s) .read hk hw)
  · exact exec_payget_error hlive hbytes hcap hpos (checkSpan_outside (s := inPayload s) .read hwidth hout)
end

section
/-! EMBED, and the statements of O48, O49, O50 (spec 45_codec.md rule R280). Behind BuildHeader and the planner EMBED is
the two capacity tests and one WriteBits (`embedBody_planned`); an EMBED that leaves no fault has passed every test
(`embed_inputs_of_live`). -/

open Sys2Proof Sys2Proof.Machine

namespace Sys2Proof.Machine

section
variable {s : State}

/-! ### Up to the capacity tests -/

/-- The state EMBED leaves when it does not fault. -/
def embedded (s : State) : State :=
  { writeBits 0 (inputHeader s ++ inputPayload s) (planned s) with bitpos := BitVec.ofNat 32 (frameLen s) }

theorem headerBits_planned (s : State) : headerBits (planned s) = inputHeader s := headerBits_builtHeader s

/-- Behind the tests of the inputs and the planner. -/
theorem embedBody_planned (hw : s.lsbw ≠ 0) (he : s.extlen.toNat ≤ 243) (hcap : s.paylen.toNat ≤ s.payCap.toNat) :
    embedBody s = (do
      require ((planned s).fits = true) .insufficientCapacity 0 (planned s).defbytes.toNat (planned s)
      checkSpan 0 (frameLen s) .write (planned s)
      return embedded s) := by
  have hplan : plan (frameLen s) (builtHeader s) = planned s := by
    rw [← frameBits_builtHeader he, plan_builtHeader hw he]
  refine bind_of_ok (buildHeader_ok hw he) (bind_of_ok (require_of (p := _ ≤ _) hcap _ _ _ _) ?_)
  simp only [frameBits_builtHeader he, hplan, headerBits_planned]
  rfl

theorem planned_fits_iff (s : State) : (planned s).fits = true ↔ frameLen s ≤ carLen s * s.lsbw.toNat :=
  decide_eq_true_iff

theorem planned_defbytes_toNat (hw : s.lsbw ≠ 0) (he : s.extlen.toNat ≤ 243) :
    (planned s).defbytes.toNat = planDefBytes (carLen s) (frameLen s) s.lsbw.toNat := by
  rw [← plan_builtHeader hw he, ← frameBits_builtHeader he]
  exact plan_defbytes_toNat (builtHeader s)

/-! ### The two capacity bounds (rule R262) -/

theorem frameLen_ge (s : State) : 5 ≤ frameLen s := by
  rw [frameLen]
  omega

theorem frameLen_pos (s : State) : 1 ≤ frameLen s := Nat.le_trans (by decide) (frameLen_ge s)

/-- A carrier that has the bytes the frame takes has those the planner asks for. -/
theorem planned_fits_of_exact (hw : s.lsbw ≠ 0) (hroom : bytesexact (frameLen s) s.lsbw.toNat ≤ carLen s) :
    (planned s).fits = true := by
  obtain ⟨hone, hmore, -⟩ := plannerFallsShortOfTheExactBound (frameLen s) s.lsbw.toNat (lsbw_pos hw)
    (Nat.le_of_lt_succ s.lsbw.isLt) (frameLen_ge s)
  have hpos := lsbw_pos hw
  rw [planned_fits_iff, ← planFits_iff hpos, planFits_iff_planNeed_le]
  omega

theorem frame_spanFits (hw : s.lsbw ≠ 0) (hroom : bytesexact (frameLen s) s.lsbw.toNat ≤ carLen s) :
    spanFits 0 (frameLen s) s :=
  (spanFits_zero_iff (frameLen_pos s) hw).2 hroom

theorem capbits_lt (s : State) : capbits (carLen s) s.lsbw.toNat < 2 ^ 27 := by
  have hmul : (carLen s - 4) * s.lsbw.toNat ≤ 3 * 2047 * 2047 * 7 :=
    Nat.mul_le_mul (Nat.le_trans (Nat.sub_le _ _) (carLen_le s)) (Nat.le_of_lt_succ s.lsbw.isLt)
  unfold capbits
  split <;> omega

theorem frameLen_lt (hw : s.lsbw ≠ 0) (hroom : bytesexact (frameLen s) s.lsbw.toNat ≤ carLen s) :
    frameLen s < 2 ^ 27 :=
  Nat.lt_of_le_of_lt ((bytesexact_le_iff (lsbw_pos hw)).1 hroom) (capbits_lt s)

/-! ### EMBED's ends -/

theorem exec_embed_ok (hlive : Live s) (hw : s.lsbw ≠ 0) (he : s.extlen.toNat ≤ 243)
    (hcap : s.paylen.toNat ≤ s.payCap.toNat) (hroom : bytesexact (frameLen s) s.lsbw.toNat ≤ carLen s) :
    exec .embed s = .next (embedded s) := by
  have hspan : spanFits 0 (frameLen s) (planned s) := frame_spanFits hw hroom
  exact exec_of_ok (by decide) hlive ((embedBody_planned hw he hcap).trans
    (bind_of_ok (require_of (planned_fits_of_exact hw hroom) _ _ _ _) (bind_of_ok (checkSpan_ok .write hspan) rfl)))

theorem embedded_eq (s : State) :
    embedded s = { planned s with pix := (embedded s).pix, bitpos := BitVec.ofNat 32 (frameLen s) } := by
  rw [embedded, writeBits_eq]

theorem frame_length (he : s.extlen.toNat ≤ 243) : (inputHeader s ++ inputPayload s).length = frameLen s := by
  rw [List.length_append, inputHeader_length he, ← payloadBits_eq, payloadBits_length, headerLen, frameLen]

theorem wroteBits_embedded (he : s.extlen.toNat ≤ 243) (hspan : spanFits 0 (frameLen s) s) :
    WroteBits 0 (inputHeader s ++ inputPayload s) s (embedded s) := by
  have hlen := frame_length he
  have hwrote := wroteBits_writeBits (s := planned s) (k := 0) (l := inputHeader s ++ inputPayload s) fun _ => by
    rw [hlen]
    exact hspan
  rw [embedded]
  generalize inputHeader s ++ inputPayload s = l at hwrote ⊢
  exact hwrote

end

end Sys2Proof.Machine

/-- Settles O48: on a carrier with the exact number of bytes both capacity tests pass, and the frame is one WriteBits. -/
theorem embedWritesTheFrame : Obligations.EmbedWritesTheFrame := by
  refine ⟨rfl, fun s hlive hw he hcap hroom => ?_⟩
  have hspan := frame_spanFits hw hroom
  refine ⟨_, exec_embed_ok hlive hw he hcap hroom, ?_, ?_, embedded_eq s, frameLen_lt hw hroom,
    wroteBits_embedded he hspan⟩
  · rw [embedded_eq]
    exact hlive
  · rw [embedded_eq]
    exact planned_fits_of_exact hw hroom

/-- Settles O49: each fault is the first test of EMBED that does not pass; none stands behind WriteBits. -/
theorem embedFaultsBeforeItWrites : Obligations.EmbedFaultsBeforeItWrites := by
  intro s hlive
  refine ⟨fun hw => ?_, fun hw he => ?_, fun hw he => ⟨fun hcap => ?_, fun hcap hshort => ?_,
    fun hcap hfits hshort => ?_⟩⟩
  · exact exec_of_error (by decide) hlive (bind_of_error (buildHeader_noWidth hw))
  · exact exec_of_error (by decide) hlive (bind_of_error (buildHeader_longExtension hw he))
  · exact exec_of_error (by decide) hlive (bind_of_ok (buildHeader_ok hw he)
      (bind_of_error (require_of_not (p := _ ≤ _) (Nat.not_le.2 hcap) _ _ _ _)))
  · have hnot : planFits (carLen s) (frameLen s) s.lsbw.toNat = false := by
      rw [planFits_eq_decide (lsbw_pos hw)]
      exact decide_eq_false (Nat.not_le.2 hshort)
    obtain ⟨hbytes, -⟩ := planDef_of_not_fits (lsbw_pos hw) hnot
    rw [← hbytes, ← planned_defbytes_toNat hw he]
    exact exec_of_error (by decide) hlive ((embedBody_planned hw he hcap).trans (bind_of_error
      (require_of_not (fun h => Nat.not_le.2 hshort ((planned_fits_iff s).1 h)) _ _ _ _)))
  · have hcheck := checkSpan_zero_overrun (s := planned s) (frameLen_pos s) hw hshort
    exact exec_of_error (by decide) hlive ((embedBody_planned hw he hcap).trans
      (bind_of_ok (require_of ((planned_fits_iff s).2 hfits) _ _ _ _) (bind_of_error hcheck)))

namespace Sys2Proof.Machine

section
variable {s : State}

/-- A command leaves one state. -/
theorem next_unique {i : Instr} {t u : State} (h : exec i s = .next t) (hu : exec i s = .next u) : t = u :=
  Host.Outcome.next.inj (h.symm.trans hu)

/-- An EMBED that leaves no fault had a width, lengths within their bounds and the exact number of bytes. -/
theorem embed_inputs_of_live {t : State} (hlive : Live s) (h : exec .embed s = .next t) (ht : Live t) :
    s.lsbw ≠ 0 ∧ s.extlen.toNat ≤ 243 ∧ s.paylen.toNat ≤ s.payCap.toNat ∧
      bytesexact (frameLen s) s.lsbw.toNat ≤ carLen s := by
  obtain ⟨hw, he, -⟩ := carries_embed (v := { s with pix := t.pix }) hlive h ht rfl rfl rfl
  obtain ⟨-, -, hfaults⟩ := embedFaultsBeforeItWrites s hlive
  obtain ⟨hcap, hplan, hexact⟩ := hfaults hw he
  have hnot {u : State} (hfault : u.fault ≠ .noFault) : exec .embed s ≠ .next u := fun hu =>
    hfault (next_unique h hu ▸ ht)
  have hcap : s.paylen.toNat ≤ s.payCap.toNat := Nat.not_lt.1 fun hlt => hnot FaultCode.noConfusion (hcap hlt)
  have hfits : frameLen s ≤ carLen s * s.lsbw.toNat :=
    Nat.not_lt.1 fun hlt => hnot FaultCode.noConfusion (hplan hcap hlt)
  exact ⟨hw, he, hcap, Nat.not_lt.1 fun hlt => hnot FaultCode.noConfusion (hexact hcap hfits hlt)⟩

/-! ### HDRPUT and then PAYPUT -/

/-- The state HDRPUT leaves when it does not fault (rule R230). -/
def headerPut (s : State) : State :=
  { writeBits 0 (inputHeader s) (builtHeader s) with bitpos := BitVec.ofNat 32 (headerLen s) }

theorem headerPut_eq (s : State) :
    headerPut s = { builtHeader s with pix := (headerPut s).pix, bitpos := BitVec.ofNat 32 (headerLen s) } := by
  rw [headerPut, writeBits_eq]

theorem writeBits_builtHeader_pix (l : Bits) (s : State) :
    (writeBits 0 l (builtHeader s)).pix = (writeBits 0 l (planned s)).pix :=
  writeBits_pix_congr (s := planned s) (t := builtHeader s) rfl rfl rfl 0 l

theorem headerPut_pix (s : State) : (headerPut s).pix = (writeBits 0 (inputHeader s) (planned s)).pix := by
  rw [← writeBits_builtHeader_pix, headerPut]

theorem exec_hdrput_ok (hlive : Live s) (hw : s.lsbw ≠ 0) (he : s.extlen.toNat ≤ 243)
    (hspan : spanFits 0 (headerLen s) s) : exec .hdrput s = .next (headerPut s) := by
  have hcheck : checkSpan 0 (builtHeader s).hdrsz.toNat .write (builtHeader s) = .ok () := by
    rw [builtHeader_hdrsz_toNat he]
    exact checkSpan_ok .write hspan
  rw [exec_of_ok (by decide) hlive (bind_of_ok (buildHeader_ok hw he) (bind_of_ok hcheck rfl)),
    builtHeader_cursor he, headerBits_builtHeader]
  rfl

theorem headerPut_bitpos_toNat (he : s.extlen.toNat ≤ 243) : (headerPut s).bitpos.toNat = headerLen s := by
  have hlen : headerLen s ≤ 99 + 8 * 243 := by
    rw [headerLen]
    omega
  exact Nat.mod_eq_of_lt (Nat.lt_of_le_of_lt hlen (by decide))

theorem payloadBits_headerPut (s : State) : payloadBits (headerPut s) = inputPayload s := by
  rw [headerPut_eq]
  rfl

/-- Header and payload written one behind the other are the frame written at once. -/
theorem payloadPut_headerPut_pix (he : s.extlen.toNat ≤ 243) :
    (payloadPut (headerPut s)).pix = (embedded s).pix :=
  calc (payloadPut (headerPut s)).pix
    _ = (writeBits (headerLen s) (inputPayload s) (headerPut s)).pix := by
      rw [payloadPut, headerPut_bitpos_toNat he, payloadBits_headerPut]
    _ = (writeBits (headerLen s) (inputPayload s) (writeBits 0 (inputHeader s) (planned s))).pix := by
      refine writeBits_pix_congr (headerPut_pix s) ?_ ?_ _ _
      · rw [headerPut_eq, writeBits_imgw]
        rfl
      · rw [headerPut_eq, writeBits_lsbw]
        rfl
    _ = (embedded s).pix := by rw [embedded, writeBits_append, inputHeader_length he, Nat.zero_add]

theorem payloadPut_headerPut (he : s.extlen.toNat ≤ 243) :
    payloadPut (headerPut s) = { embedded s with
      capneed := s.capneed, fits := s.fits, defbytes := s.defbytes, defbits := s.defbits, defpix := s.defpix } := by
  rw [payloadPut_eq, payloadPut_headerPut_pix he, headerPut_bitpos_toNat he, headerPut_eq, embedded_eq]
  rfl

end

end Sys2Proof.Machine

/-- Settles O50: both spans are parts of the frame's, and what they write is the frame (`payloadPut_headerPut`). -/
theorem embedEqualsHdrputThenPayput : Obligations.EmbedEqualsHdrputThenPayput := by
  intro s t hlive hembed ht
  obtain ⟨hw, he, hcap, hroom⟩ := embed_inputs_of_live hlive hembed ht
  have hspan := frame_spanFits hw hroom
  have hframe : headerLen s + 8 * s.paylen.toNat = frameLen s := rfl
  have hlive' : Live (headerPut s) := by
    rw [headerPut_eq]
    exact hlive
  have hput : exec .payput (headerPut s) = .next (payloadPut (headerPut s)) := by
    refine exec_payput_ok hlive' ?_ fun hpos => ?_
    · rw [headerPut_eq]
      exact hcap
    · rw [headerPut_bitpos_toNat he]
      rw [headerPut_eq] at hpos ⊢
      exact spanFits_part (s := s) hspan hpos (hframe.trans (Nat.zero_add _).symm).le
  have hdone := payloadPut_headerPut he
  rw [← next_unique hembed (exec_embed_ok hlive hw he hcap hroom)] at hdone
  refine ⟨_, _, exec_hdrput_ok hlive hw he ?_, hlive', hput, ?_, hdone⟩
  · exact spanFits_part hspan (headerLen_pos s) (by omega)
  · rw [hdone]
    exact ht
end

section
/-! EXTRACT, and the statements of O51, O52 (spec 45_codec.md rules R285, R290). A command that leaves no fault has run to
its end (`bodyOf_of_live`), so EXTRACT goes on with PAYGET on the state of HDRGET; the carrier of a successful EMBED
carries the frame (`carries_embed`), and its fields are what EXTRACT reads. -/

open Sys2Proof Sys2Proof.Machine

namespace Sys2Proof.Machine

/-! ### HDRGET and then PAYGET -/

/-- A command that leaves no fault was accepted and reached its last line. -/
theorem bodyOf_of_live {i : Instr} {s t : State} (hi : i ≠ .reset) (h : exec i s = .next t) (ht : Live t) :
    Live s ∧ bodyOf i s = .ok t := by
  rw [exec_eq_command hi] at h
  by_cases hlive : Live s
  · rw [command_live hlive] at h
    have hends := bodyOf_ends i s
    generalize bodyOf i s = r at h hends ⊢
    cases hends with
    | done _ => cases h; exact ⟨hlive, rfl⟩
    | raised hstop => cases h; exact absurd ht hstop.code
  · rw [command_faulted hlive] at h
    cases h
    exact absurd ht hlive

/-- When HDRGET leaves no fault, EXTRACT goes on with PAYGET. -/
theorem exec_extract_of_hdrget_live {s t : State} (h : exec .hdrget s = .next t) (ht : Live t) :
    exec .extract s = exec .payget t := by
  obtain ⟨hlive, hrun⟩ := bodyOf_of_live (by decide) h ht
  have hbody : bodyOf .extract s = bodyOf .payget t := bind_of_ok hrun rfl
  rw [exec_eq_command (by decide), exec_eq_command (by decide), command_live hlive, command_live ht, hbody]

theorem extRead_payloadGot (j : Nat) (s : State) : extRead j (payloadGot s) = extRead j s := by
  rw [payloadGot_eq]
  rfl

/-! ### PAYGET behind a whole valid header -/

theorem OnFrame.spanFits_iff {s u : State} {k n : Nat} (h : OnFrame s u) :
    spanFits k n u ↔ spanFits k n (atFrameWidth s) :=
  spanFits_congr (s := atFrameWidth s) h.imgw h.imgh h.lsbw k n

theorem OnFrame.readField_eq {s u : State} {k b : Nat} (h : OnFrame s u) : readField k b u = frameField k b s :=
  readField_congr (s := atFrameWidth s) h.pix h.imgw h.lsbw k b

/-- The state HDRGET leaves on a whole valid header with n extension bytes, with EXT as e (rule R240). -/
def gotHeader (n : Nat) (e : Vector Byte 243) (s : State) : State :=
  { s with
    phase := .hdrDone, hcode := 3, lsbw := BitVec.ofNat 3 (readField 2 3 s), hwidth := s.imgw, hheight := s.imgh
    extlen := BitVec.ofNat 8 n, ext := e, filesz := BitVec.ofNat 32 (frameField (59 + 8 * n) 32 s)
    hdrsz := BitVec.ofNat 11 (99 + 8 * n), bitpos := BitVec.ofNat 32 (99 + 8 * n) }

theorem exec_hdrget_ok {s : State} {n : Nat} (hlive : Live s) (hok : HeaderOk n s) :
    ∃ e, exec .hdrget s = .next (gotHeader n e s) ∧ TookExtension n s (gotHeader n e s) := by
  obtain ⟨-, hrule⟩ := hdrgetReadsAValidHeader
  obtain ⟨u, hrun, htook, hu⟩ := hrule s n hlive hok
  obtain ⟨e, rfl⟩ : ∃ e, u = gotHeader n e s := ⟨u.ext, hu⟩
  exact ⟨e, hrun, htook⟩

section
variable {s : State} {n : Nat} (e : Vector Byte 243)

theorem gotHeader_filesz_toNat (n : Nat) (s : State) :
    (gotHeader n e s).filesz.toNat = frameField (59 + 8 * n) 32 s := ofNat_frameField_toNat _ _ s

theorem gotHeader_bitpos_toNat (s : State) (hn : n ≤ 243) : (gotHeader n e s).bitpos.toNat = 99 + 8 * n :=
  Nat.mod_eq_of_lt (by omega)

theorem gotHeader_onFrame (n : Nat) (s : State) : OnFrame s (gotHeader n e s) := ⟨rfl, rfl, rfl, rfl⟩

/-- PAYGET behind the header reads the payload at the frame's own width. -/
theorem exec_payget_gotHeader (hlive : Live s) (hn : n ≤ 243) (hbytes : frameField (59 + 8 * n) 32 s % 8 = 0)
    (hcap : frameField (59 + 8 * n) 32 s / 8 ≤ s.payCap.toNat)
    (hfits : frameField (59 + 8 * n) 32 s = 0 ∨
      spanFits (99 + 8 * n) (frameField (59 + 8 * n) 32 s) (atFrameWidth s)) :
    exec .payget (gotHeader n e s) = .next (payloadGot (gotHeader n e s)) := by
  rw [← (gotHeader_onFrame e n s).spanFits_iff] at hfits
  rw [← gotHeader_filesz_toNat e] at hbytes hcap hfits
  rw [← gotHeader_bitpos_toNat e s hn] at hfits
  exact exec_payget_ok hlive hbytes hcap hfits

/-- What PAY holds behind EXTRACT. -/
theorem payRead_payloadGot_gotHeader (j : Nat) (hn : n ≤ 243) :
    payRead j (payloadGot (gotHeader n e s)) =
      if j < frameField (59 + 8 * n) 32 s / 8 then BitVec.ofNat 8 (frameField (99 + 8 * n + 8 * j) 8 s)
      else payRead j s := by
  rw [payRead_payloadGot, gotHeader_filesz_toNat, gotHeader_bitpos_toNat e s hn,
    (gotHeader_onFrame e n s).readField_eq]
  rfl

theorem payloadGot_gotHeader (hn : n ≤ 243) :
    payloadGot (gotHeader n e s) = { gotHeader n e s with
      pay := (payloadGot (gotHeader n e s)).pay
      paylen := BitVec.ofNat 29 (frameField (59 + 8 * n) 32 s / 8)
      bitpos := BitVec.ofNat 32 (99 + 8 * n + frameField (59 + 8 * n) 32 s), phase := .done } := by
  rw [payloadGot_eq, gotHeader_filesz_toNat, gotHeader_bitpos_toNat e s hn]

end

end Sys2Proof.Machine

/-- Settles O51: HDRGET reads the header (`hdrgetReadsAValidHeader`), and PAYGET the payload behind it at the frame's
width. -/
theorem extractRecoversTheFrame : Obligations.ExtractRecoversTheFrame := by
  refine ⟨rfl, fun s t h => ?_, ?_⟩
  · split
    · next ht => exact exec_extract_of_hdrget_live h ht
    · next ht => exact exec_extract_of_hdrget_fault h ht
  · intro s n hlive hok f hbytes hcap hfits
    obtain ⟨e, hrun, hin, hout⟩ := exec_hdrget_ok hlive hok
    obtain ⟨⟨-, hn, -⟩, -⟩ := hok
    refine ⟨payloadGot (gotHeader n e s), ?_, ⟨fun j hj => ?_, fun j hj => ?_⟩, fun j hj => ?_, fun j hj => ?_, ?_⟩
    · rw [exec_extract_of_hdrget_live hrun hlive]
      exact exec_payget_gotHeader e hlive hn hbytes hcap hfits
    · rw [extRead_payloadGot, hin j hj]
    · rw [extRead_payloadGot, hout j hj]
    · rw [payRead_payloadGot_gotHeader e j hn, if_pos hj]
    · rw [payRead_payloadGot_gotHeader e j hn, if_neg (Nat.not_lt.2 hj)]
    · rw [payloadGot_gotHeader e hn]
      rfl

namespace Sys2Proof.Machine

/-! ### The payload on a carrier -/

section
variable {v : State} {w : BitVec 3} {e q : List Byte} {f : Nat}

theorem frameOf_bytebits_length (w : BitVec 3) (e q : List Byte) (f : Nat) (v : State) :
    (frameOf w e f (bytebits q) v).length = 99 + 8 * e.length + 8 * q.length := by
  rw [frameOf, List.length_append, serialize_length, bytebits_length]

theorem Carries.payloadByte (h : Carries (frameOf w e f (bytebits q) v) w v) {j : Nat} (hj : j < q.length) :
    Machine.frameField (99 + 8 * e.length + 8 * j) 8 v = q[j].toNat := by
  have hlen := frameOf_bytebits_length w e q f v
  have hheader := serialize_length w.toNat v.imgw.toNat v.imgh.toNat e f
  have hbyte := fieldAt_bytebits [] hj
  rw [List.append_nil] at hbyte
  rw [Machine.frameField, h.frame_atFrameWidth, h.readField (by omega), frameOf,
    fieldAt_append_right _ _ (by omega), hheader, Nat.add_sub_cancel_left, hbyte]

theorem Carries.payloadFits (h : Carries (frameOf w e f (bytebits q) v) w v) :
    8 * q.length = 0 ∨ Machine.spanFits (99 + 8 * e.length) (8 * q.length) (Machine.atFrameWidth v) := by
  have hlen := frameOf_bytebits_length w e q f v
  refine (Nat.eq_zero_or_pos _).imp_right fun hpos => ?_
  rw [h.frame_atFrameWidth]
  exact spanFits_part h.fits hpos (by omega)

theorem Carries.fileSize {p : Bits} (h : Carries (frameOf w e f p v) w v) (hf : f < 2 ^ 32) :
    Machine.frameField (59 + 8 * e.length) 32 v = f := by
  obtain ⟨-, hfile, -⟩ := serialize_back_fields (w := w.toNat) (wid := v.imgw.toNat) (hei := v.imgh.toNat) (e := e)
    (l := p) hf
  exact (h.frameField (by omega)).trans hfile

end

theorem payBytes_length (j n : Nat) (s : State) : (payBytes j n s).length = n := by simp [payBytes]

theorem payBytes_getElem {n j : Nat} {s : State} (h : j < (payBytes 0 n s).length) :
    (payBytes 0 n s)[j] = payRead j s := by
  simp [payBytes]

/-- The payload's bit count fits FILESZ. -/
theorem fileSize_lt (s : State) : 8 * s.paylen.toNat < 2 ^ 32 := by
  have := s.paylen.isLt
  omega

/-- A whole valid frame of the inputs in s stands on the carrier of v. -/
structure HoldsFrame (s v : State) : Prop where
  header : HeaderOk s.extlen.toNat v
  width : BitVec.ofNat 3 (readField 2 3 v) = s.lsbw
  fileSize : frameField (59 + 8 * s.extlen.toNat) 32 v = 8 * s.paylen.toNat
  fits : 8 * s.paylen.toNat = 0 ∨ spanFits (99 + 8 * s.extlen.toNat) (8 * s.paylen.toNat) (atFrameWidth v)
  extByte : ∀ j, j < s.extlen.toNat → BitVec.ofNat 8 (frameField (51 + 8 * j) 8 v) = extRead j s
  payByte : ∀ j, j < s.paylen.toNat →
    BitVec.ofNat 8 (frameField (99 + 8 * s.extlen.toNat + 8 * j) 8 v) = payRead j s

/-- After an EMBED that succeeds, with no terminator in the extension, every block with its carrier and its dimensions
holds the frame. -/
theorem holdsFrame_embed {s t v : State} (hlive : Live s) (hembed : exec .embed s = .next t) (ht : Live t)
    (hext : NoTerminator s) (hp : v.pix = t.pix) (hw : v.imgw = s.imgw) (hh : v.imgh = s.imgh) : HoldsFrame s v := by
  obtain ⟨hwidth, he, hcarries⟩ := carries_embed hlive hembed ht hp hw hh
  have hextLen := extBytes_length he
  have hpayLen := payBytes_length 0 s.paylen.toNat s
  refine ⟨?_, congrArg State.lsbw hcarries.frame_atFrameWidth, ?_, ?_, fun j hj => ?_, fun j hj => ?_⟩
  · rw [← hextLen]
    refine hcarries.headerOk hwidth (by omega) (fileSize_lt s) fun j hj => ?_
    rw [extBytes_getElem]
    exact hext j (by omega)
  · rw [← hextLen]
    exact hcarries.fileSize (fileSize_lt s)
  · have hfits := hcarries.payloadFits
    rwa [hextLen, hpayLen] at hfits
  · rw [hcarries.extensionByte (by omega), extBytes_getElem, BitVec.ofNat_toNat, BitVec.setWidth_eq]
  · rw [← hextLen, hcarries.payloadByte (by omega), payBytes_getElem, BitVec.ofNat_toNat, BitVec.setWidth_eq]

end Sys2Proof.Machine

/-- Settles O52: EXTRACT recovers the frame on the carrier (`extractRecoversTheFrame`), which is that of the inputs
(`holdsFrame_embed`). -/
theorem extractInvertsEmbed : Obligations.ExtractInvertsEmbed := by
  intro s t v hlive hembed ht hext hv hp hw hh hpayCap
  have hframe := holdsFrame_embed hlive hembed ht hext hp hw hh
  obtain ⟨hlsbw, -, hcap, hroom⟩ := embed_inputs_of_live hlive hembed ht
  have hlen := frameLen_lt hlsbw hroom
  obtain ⟨-, -, hextract⟩ := extractRecoversTheFrame
  have hrule := hextract v s.extlen.toNat hv hframe.header
  dsimp only at hrule
  rw [hframe.fileSize, hframe.width, hw, hh, Nat.mul_div_cancel_left _ (by decide), hpayCap] at hrule
  obtain ⟨u, hrun, ⟨hextByte, -⟩, hpayByte, -, hu⟩ := hrule (Nat.mul_mod_right _ _) hcap hframe.fits
  refine ⟨u, hrun, ?_, by rw [hu], by rw [hu], by rw [hu], by rw [hu], by rw [hu], ?_, ?_, fun j hj => ?_, ?_,
    fun j hj => ?_, ?_, ?_⟩
  · rw [hu]
    exact hv
  · rw [hu]
    exact Nat.mod_eq_of_lt (fileSize_lt s)
  · rw [hu]
    exact BitVec.ofNat_toNat _ s.extlen
  · rw [hextByte j hj, hframe.extByte j hj]
  · rw [hu]
    exact BitVec.ofNat_toNat _ s.paylen
  · rw [hpayByte j hj, hframe.payByte j hj]
  · rw [hu]
    exact Nat.mod_eq_of_lt (Nat.lt_trans hlen (by decide))
  · rw [hu, ← hp]
end

section
/-! The faulted state, and the statements of O8, O55 (spec 60_exceptions.md rules R310, R312). A fault entry writes the
fault registers and nothing else, so what a faulting command leaves is the state its raise stands in: `RaisesIn` bounds
the states a run can raise in, and `bodyOf_raisesIn` gives the bound for every command. -/

open Sys2Proof Sys2Proof.Machine

namespace Sys2Proof.Machine

/-! ### Writes while a fault is recorded (rule R312) -/

/-- Only the data value 1 is RESET. -/
theorem eq_one_of_decode_reset {data : BitVec 64} (h : decode data = .ok .reset) : data = 1 :=
  (decode_eq_ok.1 h).1.symm

theorem writeCmd_faulted {data : BitVec 64} {s : State} (h : ¬ Live s) (hdata : data ≠ 1) :
    writeCmd data s = .next s := by
  unfold writeCmd
  cases hd : decode data with
  | ok i => exact exec_faulted (fun hi => hdata (eq_one_of_decode_reset (hi ▸ hd))) h
  | error e => exact command_faulted h

/-- A write while a fault is recorded is ignored, whether it names CMD or another index. -/
theorem transact_wr_faulted {index : BitVec 12} {data : BitVec 64} {s : State} (h : ¬ Live s)
    (hreset : ¬ (index = 0 ∧ data = 1)) : transact (.wr index data) s = .next s := by
  rw [transact]
  split
  · exact writeCmd_faulted h fun hd => hreset ⟨‹_›, hd⟩
  · rw [writeIndex_faulted h]

/-! ### The states a run raises in (rule R310) -/

/-- Every raise of the run x stands in a state that meets P. -/
abbrev RaisesIn {α : Type} (P : State → Prop) (x : Run α) : Prop := Ends (fun _ => True) (fun _ _ u => P u) x

section
variable {α β : Type} {P : State → Prop} {s : State}

theorem raisesIn_ok (a : α) : RaisesIn P (.ok a) := .done trivial

theorem RaisesIn.bind {x : Run α} {f : α → Run β} (hx : RaisesIn P x) (hf : ∀ a, RaisesIn P (f a)) :
    RaisesIn P (x >>= f) :=
  Ends.bind hx fun a _ => hf a

theorem raisesIn_require {p : Prop} [Decidable p] {c : FaultCode} {sub info : Nat} (h : P s) :
    RaisesIn P (require p c sub info s) :=
  (ends_require info fun _ => h).mono (fun _ _ => trivial) fun _ _ _ hu => hu

theorem raisesIn_checkSpan {k n : Nat} {kind : SpanKind} (h : P s) : RaisesIn P (checkSpan k n kind s) := by
  cases kind with
  | read => exact (ends_checkSpan_read (fun _ _ => h) h).mono (fun _ _ => trivial) fun _ _ _ hu => hu
  | write => exact (ends_checkSpan_write (fun _ _ => h) h).mono (fun _ _ => trivial) fun _ _ _ hu => hu

theorem raisesIn_checkPayload {k l : Nat} {kind : SpanKind} (h : P s) : RaisesIn P (checkPayload k l kind s) := by
  unfold checkPayload
  split
  · exact raisesIn_checkSpan h
  · exact raisesIn_ok ()

theorem raisesIn_checkZone (h : P s) : RaisesIn P (checkZone s) :=
  (raisesIn_require h).bind fun _ => raisesIn_require h

theorem raisesIn_cursorRead (n : Nat) (h : P s) : RaisesIn P (cursorRead n s) :=
  ((raisesIn_checkSpan h).bind fun _ => raisesIn_ok _).bind fun _ => raisesIn_ok _

theorem raisesIn_cursorWrite (n : Nat) (h : P s) : RaisesIn P (cursorWrite n s) :=
  (raisesIn_checkSpan h).bind fun _ => raisesIn_ok _

/-- BuildHeader raises before it writes, and is followed by what stands behind it in the state it leaves. -/
theorem raisesIn_buildHeader_bind {f : State → Run β} (h : P s) (hf : RaisesIn P (f (builtHeader s))) :
    RaisesIn P (buildHeader s >>= f) :=
  (ends_buildHeader h h).bind fun _ ⟨ht, _⟩ => ht ▸ hf

end

/-! ### The commands that write before they raise -/

/-- A state in which command i from s can raise: the memories are as in s, only HDRGET and EXTRACT have moved the cursor,
and only the five commands that rebuild the header or set PHASE first have written anything. -/
structure RaiseState (i : Instr) (s u : State) : Prop where
  pix : u.pix = s.pix
  pay : u.pay = s.pay
  bitpos : i ≠ .hdrget → i ≠ .extract → u.bitpos = s.bitpos
  inPlace : i ∉ [.hdrget, .extract, .hdrput, .embed, .payget] → u = s

theorem RaiseState.refl (i : Instr) (s : State) : RaiseState i s s := ⟨rfl, rfl, fun _ _ => rfl, fun _ => rfl⟩

/-- HDRPUT's span test stands behind BuildHeader, which writes header registers only (rule R230). -/
theorem hdrputBody_raisesIn (s : State) : RaisesIn (RaiseState .hdrput s) (hdrputBody s) := by
  have hbuilt : RaiseState .hdrput s (builtHeader s) := ⟨rfl, rfl, fun _ _ => rfl, fun h => absurd (by decide) h⟩
  exact raisesIn_buildHeader_bind (.refl _ s) ((raisesIn_checkSpan hbuilt).bind fun _ => raisesIn_ok _)

/-- EMBED's tests stand behind BuildHeader and the planner, which write registers only (rule R280). -/
theorem embedBody_raisesIn (s : State) : RaisesIn (RaiseState .embed s) (embedBody s) := by
  have hbuilt : RaiseState .embed s (builtHeader s) := ⟨rfl, rfl, fun _ _ => rfl, fun h => absurd (by decide) h⟩
  have hplan : RaiseState .embed s (plan (frameBits (builtHeader s)) (builtHeader s)) :=
    ⟨rfl, rfl, fun _ _ => rfl, fun h => absurd (by decide) h⟩
  refine raisesIn_buildHeader_bind (.refl _ s) ((raisesIn_require hbuilt).bind fun _ => ?_)
  exact (raisesIn_require hplan).bind fun _ => (raisesIn_checkSpan hplan).bind fun _ => raisesIn_ok _

theorem payputBody_raisesIn (s : State) : RaisesIn (RaiseState .payput s) (payputBody s) := by
  rw [payputBody_eq]
  exact (raisesIn_require (.refl _ s)).bind fun _ => (raisesIn_checkPayload (.refl _ s)).bind fun _ => raisesIn_ok _

/-- PAYGET's tests all stand behind the write of PHASE and before the first write of PAY (rule R275). -/
theorem paygetBody_raisesIn {P : State → Prop} {s : State} (h : P (inPayload s)) : RaisesIn P (paygetBody s) := by
  rw [paygetBody_eq]
  exact (raisesIn_require h).bind fun _ => (raisesIn_require h).bind fun _ =>
    (raisesIn_checkPayload h).bind fun _ => raisesIn_ok _

/-- HDRGET's row names neither memory, so no state on its way has written one (10_state.md rule R21). -/
theorem Kept.hdrget_memories {s u : State} (h : Kept .hdrget s u) : u.pix = s.pix ∧ u.pay = s.pay :=
  ⟨(congrArg State.pix h.frame :), (congrArg State.pay h.frame :)⟩

/-- HDRGET and EXTRACT may have moved the cursor: of their raises only the memories are said. -/
theorem raiseState_of_memories {i : Instr} {s u : State} (hi : i = .hdrget ∨ i = .extract)
    (h : u.pix = s.pix ∧ u.pay = s.pay) : RaiseState i s u where
  pix := h.1
  pay := h.2
  bitpos hget hext := (hi.elim hget hext).elim
  inPlace hlist := absurd (by rcases hi with rfl | rfl <;> decide) hlist

theorem hdrgetBody_raisesIn (s : State) : RaisesIn (RaiseState .hdrget s) (hdrgetBody s) :=
  (hdrgetBody_ends s).mono (fun _ _ => trivial) fun _ _ _ hu =>
    raiseState_of_memories (.inl rfl) hu.hdrget_memories

/-- EXTRACT raises as HDRGET does, or as PAYGET does in the state HDRGET leaves (rule R285). -/
theorem extractBody_raisesIn (s : State) : RaisesIn (RaiseState .extract s) (extractBody s) :=
  ((hdrgetBody_ends s).mono (fun _ hu => hu) fun _ _ _ hu =>
    raiseState_of_memories (.inr rfl) hu.hdrget_memories).bind fun _ hu =>
      paygetBody_raisesIn (raiseState_of_memories (.inr rfl) hu.hdrget_memories)

/-! ### All commands -/

theorem bodyOf_raisesIn (i : Instr) (s : State) : RaisesIn (RaiseState i s) (bodyOf i s) := by
  have hs : RaiseState i s s := .refl i s
  cases i with
  | nop | reset | flat => exact raisesIn_ok _
  | unflat | carrd | carwr | xlate => exact (raisesIn_require hs).bind fun _ => raisesIn_ok _
  | zonerd | zonewr => exact (raisesIn_checkZone hs).bind fun _ => raisesIn_ok _
  | bitrd => exact raisesIn_cursorRead 1 hs
  | bitwr => exact raisesIn_cursorWrite 1 hs
  | fldrd n => exact (raisesIn_require hs).bind fun _ => raisesIn_cursorRead _ hs
  | fldwr n => exact (raisesIn_require hs).bind fun _ => raisesIn_cursorWrite _ hs
  | hdrbuild => exact (ends_buildHeader hs hs).mono (fun _ _ => trivial) fun _ _ _ hu => hu
  | capchk => exact raisesIn_buildHeader_bind hs (raisesIn_ok _)
  | hdrput => exact hdrputBody_raisesIn s
  | hdrget => exact hdrgetBody_raisesIn s
  | payput => exact payputBody_raisesIn s
  | payget => exact paygetBody_raisesIn ⟨rfl, rfl, fun _ _ => rfl, fun h => absurd (by decide) h⟩
  | embed => exact embedBody_raisesIn s
  | extract => exact extractBody_raisesIn s

/-- A command that faults in a live state has run into a raise: only that writes FAULT, and RESET clears it. -/
theorem bodyOf_of_fault {i : Instr} {s t : State} (hlive : Live s) (h : exec i s = .next t) (ht : ¬ Live t) :
    bodyOf i s = .error t := by
  by_cases hi : i = .reset
  · subst hi
    cases h
    exact absurd rfl ht
  rw [exec_eq_command hi, command_live hlive] at h
  have hends := bodyOf_ends i s
  generalize bodyOf i s = r at h hends ⊢
  cases hends with
  | done hfin =>
    cases h
    obtain ⟨hfault, -⟩ := hfin.faultRecord
    exact absurd (hfault.trans hlive) ht
  | raised hstop => cases h; rfl

/-- A command that faults leaves a state it can raise in, with the fault registers written over it. -/
theorem exec_fault {i : Instr} {s t : State} (hlive : Live s) (h : exec i s = .next t) (ht : ¬ Live t) :
    ∃ c sub info u, RaiseState i s u ∧ t = raise c sub info u := by
  have hraises := bodyOf_raisesIn i s
  rw [bodyOf_of_fault hlive h ht] at hraises
  cases hraises with
  | raised hu => exact ⟨_, _, _, _, hu, rfl⟩

end Sys2Proof.Machine

/-- Settles O8: reads have no test of FAULT, ignored writes are `transact_wr_faulted`, and the data value 1 is RESET. -/
theorem faultedStateIsTerminal : Obligations.FaultedStateIsTerminal := by
  intro s rest hfaulted
  refine ⟨fun _ => step_rd, fun index d hp hreset => ?_, fun hp => ?_⟩
  · rw [step_cons hp, hostMove]
    exact transact_wr_faulted (by exact hfaulted) hreset
  · exact ⟨_, step_command hp rfl, rfl, (readIndex_resetRegs · _), rfl, rfl, rfl⟩

/-- Settles O55: the fault entry writes over a state that `RaiseState` bounds (`exec_fault`). -/
theorem faultingCommandLeavesTheMemories : Obligations.FaultingCommandLeavesTheMemories := by
  intro i s t hlive h ht
  obtain ⟨c, sub, info, u, hu, rfl⟩ := exec_fault hlive h ht
  refine ⟨hu.pix, hu.pay, hu.bitpos, fun hi => ?_⟩
  rw [hu.inPlace hi]
  rfl
end

section
/-! What a host move can answer, and the statements of O12, O13, O14 (spec 20_memory.md rules R71, R75,
70_reset_and_hazards.md rules R348, R349; log entries 1, 3, 6, 7). Every command and bus transaction answers a next state
that keeps the model's own fields (`transact_answers`); of the other moves only an access to a missing cell does not
(`hostMove_cases`). -/

open Sys2Proof Sys2Proof.Machine

namespace Sys2Proof.Machine

/-! ### Commands and bus transactions -/

/-- The outcome is a next state, with PAY_CAP and the moves still to come as in s. -/
def Answers (s : State) (o : Host.Outcome State Fault Refusal) : Prop :=
  ∃ t, o = .next t ∧ t.payCap = s.payCap ∧ t.pending = s.pending

theorem Answers.next {s : State} {o : Host.Outcome State Fault Refusal} (h : Answers s o) : ∃ t, o = .next t := by
  obtain ⟨t, ht, -⟩ := h
  exact ⟨t, ht⟩

/-- No row of a command names one of the model's own fields (`exec_frame`). -/
theorem exec_answers (i : Instr) (s : State) : Answers s (exec i s) := by
  by_cases hi : i = .reset
  · subst hi
    exact ⟨_, exec_reset s, rfl, rfl⟩
  · have h := (exec_eq_command hi s).trans (command_next _ s)
    have hframe := exec_frame hi h
    exact ⟨_, h, (congrArg State.payCap hframe :), (congrArg State.pending hframe :)⟩

theorem writeCmd_answers (data : BitVec 64) (s : State) : Answers s (writeCmd data s) := by
  unfold writeCmd
  cases decode data with
  | ok i => exact exec_answers i s
  | error e =>
    by_cases hlive : Live s
    · exact ⟨_, command_live hlive, rfl, rfl⟩
    · exact ⟨s, command_faulted hlive, rfl, rfl⟩

theorem writeReg_keeps_hostFields (r : Reg) (data : BitVec 64) (s : State) :
    (writeReg r data s).payCap = s.payCap ∧ (writeReg r data s).pending = s.pending := by
  cases r <;> exact ⟨rfl, rfl⟩

theorem writeIndex_keeps_hostFields (index : BitVec 12) (data : BitVec 64) (s : State) :
    (writeIndex index data s).payCap = s.payCap ∧ (writeIndex index data s).pending = s.pending := by
  by_cases hlive : Live s
  · rw [writeIndex, if_pos hlive]
    cases regAt index.toNat with
    | none => exact ⟨rfl, rfl⟩
    | some r => exact writeReg_keeps_hostFields r data s
  · rw [writeIndex_faulted hlive]
    exact ⟨rfl, rfl⟩

theorem transact_answers (m : Transaction) (s : State) : Answers s (transact m s) := by
  cases m with
  | rd index => exact ⟨_, rfl, rfl, rfl⟩
  | wr index data =>
    rw [transact]
    split
    · exact writeCmd_answers data s
    · exact ⟨_, rfl, writeIndex_keeps_hostFields index data s⟩

/-! ### The host's own accesses to cells -/

theorem isPixCell_iff {x y c : Nat} : isPixCell x y c = true ↔ x < 2047 ∧ y < 2047 ∧ c < 3 := decide_eq_true_iff

/-- Different existing PIX cells have different numbers: `pixKey` is `unflat` on the largest grid. -/
theorem pixKey_injective {x y c x' y' c' : Nat} (hx : x < 2047) (hc : c < 3) (hx' : x' < 2047) (hc' : c' < 3)
    (h : pixKey x y c = pixKey x' y' c') : (x, y, c) = (x', y', c') := by
  have hc := Nat.le_of_lt_succ hc
  have hc' := Nat.le_of_lt_succ hc'
  have h : unflat 2047 x y c = unflat 2047 x' y' c' := h
  have hcol := congrArg (colOf 2047) h
  have hrow := congrArg (rowOf 2047) h
  have hchan := congrArg chanOf h
  rw [colOf_unflat y hx hc, colOf_unflat y' hx' hc'] at hcol
  rw [rowOf_unflat y hx hc, rowOf_unflat y' hx' hc'] at hrow
  rw [chanOf_unflat 2047 x y hc, chanOf_unflat 2047 x' y' hc'] at hchan
  rw [hcol, hrow, hchan]

/-- The move is an access to a PIX or PAY cell that does not exist in s (rules R70, R71). -/
def NamesMissingCell (s : State) (m : HostMove) : Prop :=
  (∃ x y c, ¬ (x < 2047 ∧ y < 2047 ∧ c < 3) ∧ (m = .pixRead x y c ∨ ∃ v, m = .pixWrite x y c v)) ∨
  (∃ j, s.payCap.toNat ≤ j ∧ (m = .payRead j ∨ ∃ v, m = .payWrite j v))

/-- Everything a host move can answer. -/
theorem hostMove_cases (m : HostMove) (s : State) :
    Answers s (hostMove m s) ∨ ((∃ f, hostMove m s = .fault f) ∧ NamesMissingCell s m) := by
  cases m with
  | bus m => exact .inl (transact_answers m s)
  | pixRead x y c =>
    by_cases hcell : isPixCell x y c = true
    · exact .inl ⟨_, if_pos hcell, rfl, rfl⟩
    · exact .inr ⟨⟨_, if_neg hcell⟩, .inl ⟨x, y, c, mt isPixCell_iff.2 hcell, .inl rfl⟩⟩
  | pixWrite x y c v =>
    by_cases hcell : isPixCell x y c = true
    · exact .inl ⟨_, if_pos hcell, rfl, rfl⟩
    · exact .inr ⟨⟨_, if_neg hcell⟩, .inl ⟨x, y, c, mt isPixCell_iff.2 hcell, .inr ⟨v, rfl⟩⟩⟩
  | payRead j =>
    by_cases hcell : j < s.payCap.toNat
    · exact .inl ⟨_, if_pos hcell, rfl, rfl⟩
    · exact .inr ⟨⟨_, if_neg hcell⟩, .inr ⟨j, Nat.le_of_not_lt hcell, .inl rfl⟩⟩
  | payWrite j v =>
    by_cases hcell : j < s.payCap.toNat
    · exact .inl ⟨_, if_pos hcell, rfl, rfl⟩
    · exact .inr ⟨⟨_, if_neg hcell⟩, .inr ⟨j, Nat.le_of_not_lt hcell, .inr ⟨v, rfl⟩⟩⟩
  | hardReset => exact .inl ⟨_, rfl, rfl, rfl⟩

end Sys2Proof.Machine

/-- Settles O13: both writes are a write to memory, under a number that no other existing cell has
(`pixKey_injective`). -/
theorem hostCellWritesChangeOneCell : Obligations.HostCellWritesChangeOneCell := by
  refine fun s rest v => ⟨fun x y c hp => ?_, fun j hp => ?_⟩
  · rw [step_cons hp, hostMove]
    refine ⟨fun hcell => ?_, fun hmissing => if_neg (mt isPixCell_iff.1 hmissing)⟩
    rw [if_pos (isPixCell_iff.2 hcell)]
    obtain ⟨hx, -, hc⟩ := hcell
    refine ⟨_, rfl, rfl, ?_, fun x' y' c' hx' _ hc' hne => ?_⟩
    · rw [pixByte_setPixByte, if_pos rfl]
    · rw [pixByte_setPixByte, if_neg fun h => hne (pixKey_injective hx' hc' hx hc h)]
      rfl
  · rw [step_cons hp, hostMove]
    refine ⟨fun hcell => ?_, fun hmissing => if_neg (Nat.not_lt.2 hmissing)⟩
    rw [if_pos hcell]
    refine ⟨_, rfl, rfl, ?_, fun j' hne => ?_⟩
    · rw [payRead_payWrite, if_pos rfl]
    · rw [payRead_payWrite, if_neg hne]
      rfl

/-- Settles O14: a step is the host's next move, and `hostMove_cases` says what that can answer. -/
theorem onlyMissingCellsStopTheModel : Obligations.OnlyMissingCellsStopTheModel := by
  intro s
  cases hm : s.pending with
  | nil =>
    rw [step_nil hm]
    refine ⟨fun _ => rfl, nofun, nofun, fun t ht => ?_⟩
    cases ht
    exact ⟨rfl, hm⟩
  | cons m rest =>
    rw [step_cons hm]
    rcases hostMove_cases m { s with pending := rest } with ⟨t, ht, hcap, hpending⟩ | ⟨⟨f, hf⟩, hmissing⟩
    · rw [ht]
      refine ⟨nofun, nofun, nofun, fun u hu => ?_⟩
      cases hu
      exact ⟨hcap, hpending⟩
    · rw [hf]
      exact ⟨nofun, nofun, fun _ _ => ⟨m, rest, rfl, hmissing⟩, fun t ht => by cases ht⟩

/-- Settles O12: each outcome is an answer (`exec_answers`, `transact_answers`). -/
theorem everyTransactionEnds : Obligations.EveryTransactionEnds :=
  ⟨fun i s => (exec_answers i s).next, fun m s => (transact_answers m s).next⟩

end
